-- ==== Sys2Proof/Word.lean ====
section
/-! DEFINITION. The words of the transceiver block: bytes, 10-bit levels, strings, line names and modes, and the five-entry
register file's shape. -/

namespace Sys2Proof

/-- UInt8 of 00_scope.md R11: an 8-bit byte, bits 7..0. -/
abbrev Byte := BitVec 8

/-- UInt10 of 00_scope.md R11: a channel level, bits 9..0. -/
abbrev UInt10 := BitVec 10

/-- A logical line level or one data bit (00_scope.md R14): `true` is logical 1 (high), `false` is logical 0 (low). -/
abbrev Level := Bool

/-- A finite character string of 30_encoding.md R82, as its list of characters. -/
abbrev Str := List Char

/-- The two logical lines (00_scope.md R14). -/
inductive Line where
  | clk
  | data
  deriving DecidableEq, Repr

/-- A line's mode (00_scope.md R14): `output` is the spec's OUT (driven), `input` is IN (released). -/
inductive Mode where
  | input
  | output
  deriving DecidableEq, Repr

/-- Five like things, one for each channel or for each remap entry, numbered 0 to 4 (10_state.md R21, R30). -/
structure Five (α : Type) where
  c0 : α
  c1 : α
  c2 : α
  c3 : α
  c4 : α
  deriving DecidableEq, Repr, Inhabited

end Sys2Proof
end

