-- ==== Sys2Proof/Config.lean ====
section
/-! DEFINITION. The parameters of 00_scope.md R9: the OPEN ones as constants without a body, so that nothing can be proved
about their values and every claim holds for all of them; the reset code of the current registers, which the spec decides. -/

namespace Sys2Proof

/-- P_ADDR_OUT (00_scope.md R9, D12, D13): the "standard output address" of 5-channel mode, also byte 0 of the first all-zero
frame. OPEN, no relation to the other addresses assumed (R10). Assumption log entry 1. -/
opaque Config.addrOut : Byte

/-- P_ADDR_OUT_3CH (R9, D12): the 3-channel output address. OPEN, entry 1. -/
opaque Config.addrOut3ch : Byte

/-- P_ADDR_OUT_2CH (R9, D12): the 2-channel output address. OPEN, entry 1. -/
opaque Config.addrOut2ch : Byte

/-- P_ADDR_SLEEP (R9, D12): the sleep register address. OPEN, entry 1. -/
opaque Config.addrSleep : Byte

/-- P_EN_5CH (R9, D12): the enable byte of 5-channel mode. OPEN, entry 1. -/
opaque Config.en5ch : Byte

/-- P_EN_3CH (R9, D12): the enable byte of 3-channel mode. OPEN, entry 1. -/
opaque Config.en3ch : Byte

/-- P_EN_2CH (R9, D12): the enable byte of 2-channel mode. OPEN, entry 1. -/
opaque Config.en2ch : Byte

/-- P_REMAP_AT_RESET (R9, R290, D29): the remap store's five integers at power-on. OPEN, entry 2. -/
opaque Config.remapAtReset : Five Int

/-- P_REMAP_VALID_AT_RESET (R9, R290, D29): whether a remap is configured at power-on. OPEN, entry 2. -/
opaque Config.remapValidAtReset : Bool

/-- ACK_DRAW (R9, 10_state.md R29, D18): what the n-th look at a line finds while that line is an input, any of 0 and 1,
fresh at each look. A free value that no operation of the block reads. Assumption log entry 4. -/
opaque Config.ackDraw : Nat → Level

/-- With `Config.settleDen`, the OPEN positive duration T_SETTLE (R9, D14). Assumption log entry 3. -/
opaque Config.settleNum : Nat

/-- See `Config.settleNum`. -/
opaque Config.settleDen : Nat

/-- T_SETTLE (R9, 30_encoding.md R92, 40_bit_transport.md R123): one constant for every settle, greater than 0, in a time
unit that the spec does not give; as the two numbers below it range over all naturals, it ranges over all positive
rationals. No rule of the model depends on it. Entry 3. -/
def Config.tSettle : Rat := (Config.settleNum + 1) / (Config.settleDen + 1)

/-- Which numbers beside 7 and 8 name a pin of the platform. The type PinId is OPEN (R9, D19; no range and no numbering, N10 of
91_not_in_source.md); entry 5. -/
opaque Config.otherPin : Nat → Bool

/-- Whether a number names a pin of the platform: 7 and 8, the two pins of the example of 43_current_and_init.md R232, do, and of
every other number it is left open. Entry 5. -/
def Config.isPin (n : Nat) : Bool := n == 7 || n == 8 || Config.otherPin n

/-- CUR_DEFAULT (R9, D11): the reset value of both current codes. The spec's own choice, assumption log entry 10. -/
def Config.curDefault : Byte := 0x0E

end Sys2Proof
end

