-- ==== Sys2Proof/Syntax.lean ====
section
/-! DEFINITION. The operand types (pin identifiers, colour inputs, argument lists) and the fifteen operations of
spec/opcode_table.json, one constructor a row, with the operands of each. -/

namespace Sys2Proof

/-- A GPIO pin identifier. Its type is an OPEN parameter, any type with decidable equality (00_scope.md R9, D19; entry I4 of
93_implementation_defined.md): here the numbers that name a pin, and which ones do is `Config.isPin`, left open. DESIGN CHOICE,
assumption log entry 5. -/
structure PinId where
  id : Nat
  isPin : Config.isPin id = true
  deriving DecidableEq, Repr

/-- One colour input as the host hands it over: a rational, or one of the float values that are no rational and that
42_channel_encoding.md R170 refuses. -/
inductive LevelInput where
  | rat (v : Rat)
  | nan
  | posInf
  | negInf
  deriving DecidableEq, Repr

/-- The argument list that travels beside the command word (30_encoding.md R81, R82), by the type of its members: the
operand forms of spec/opcode_table.json. -/
inductive Args where
  /-- INIT: exactly two, each an Option PinId (R80). -/
  | pins (clk data : Option PinId)
  /-- WRITE_COLOR: a list of colour inputs (R80). -/
  | levels (vs : List LevelInput)
  /-- RAW_COLOR: a list of strings (R80). -/
  | strings (ss : List Str)
  /-- SET_REMAP and SET_CURRENT: a list of integers (R80). -/
  | ints (xs : List Int)
  /-- SET_LINE (R122). -/
  | lineLevel (l : Line) (v : Level)
  /-- SET_MODE (R124). -/
  | lineMode (l : Line) (m : Mode)
  /-- WRITE_BIT (R125). -/
  | bit (b : Level)
  /-- WRITE_BYTE (R148). -/
  | byte (x : Byte)
  /-- WRITE_BUFFER (R152). -/
  | buffer (bytes : List Byte) (count : Nat)
  /-- An operation without operands. -/
  | none
  deriving DecidableEq, Repr

/-- Who issues a command word: the host at the command interface, or the block's own sequencing (00_scope.md R3: "The ten
micro-operations are internal and a host cannot issue them"). -/
inductive Port where
  | host
  | micro
  deriving DecidableEq, Repr

/-- An operation of the block with its operands (00_scope.md R3, 30_encoding.md R80, R83). The first five are the host
commands, the other ten the micro-operations. -/
inductive Instr where
  /-- INIT, 0x01: 43_current_and_init.md R232. -/
  | init (clk data : Option PinId)
  /-- WRITE_COLOR, 0x02: 42_channel_encoding.md R175. -/
  | writeColor (vs : List LevelInput)
  /-- RAW_COLOR, 0x03: 42_channel_encoding.md R180. -/
  | rawColor (args : List Str)
  /-- SET_REMAP, 0x04: 42_channel_encoding.md R182. -/
  | setRemap (args : List Int)
  /-- SET_CURRENT, 0x05: 43_current_and_init.md R224. -/
  | setCurrent (args : List Int)
  /-- SET_LINE, 0x80: 40_bit_transport.md R122. -/
  | setLine (l : Line) (v : Level)
  /-- SET_MODE, 0x81: 40_bit_transport.md R124. -/
  | setMode (l : Line) (m : Mode)
  /-- WRITE_BIT, 0x82: 40_bit_transport.md R125. -/
  | writeBit (b : Level)
  /-- ACK_CYCLE, 0x83: 41_byte_frame_transport.md R145. -/
  | ackCycle
  /-- WRITE_BYTE, 0x84: 41_byte_frame_transport.md R148. -/
  | writeByte (x : Byte)
  /-- START, 0x85: 41_byte_frame_transport.md R150. -/
  | start
  /-- STOP, 0x86: 41_byte_frame_transport.md R151. -/
  | stop
  /-- WRITE_BUFFER, 0x87: 41_byte_frame_transport.md R152. -/
  | writeBuffer (bytes : List Byte) (count : Nat)
  /-- FLUSH, 0x88: 42_channel_encoding.md R190. -/
  | flush
  /-- PRE_INIT, 0x89: 43_current_and_init.md R230. -/
  | preInit
  deriving DecidableEq, Repr

end Sys2Proof
end

