-- ==== Sys2Proof/WellFormed.lean ====
section
/-! DEFINITION. Which operations have operands of the shape the opcode table gives them. -/

namespace Sys2Proof

/-- The two shape conditions of the table: WRITE_COLOR is called with exactly five inputs (30_encoding.md R82: "Their
argument lists always have the stated length"), and WRITE_BUFFER's count is at most its buffer's length
(41_byte_frame_transport.md R152). A registered command may have any argument count (R82). -/
def Instr.wellFormed (i : Instr) : Bool :=
  match i with
  | .init _ _ => true
  | .writeColor vs => vs.length == 5
  | .rawColor _ => true
  | .setRemap _ => true
  | .setCurrent _ => true
  | .setLine _ _ => true
  | .setMode _ _ => true
  | .writeBit _ => true
  | .ackCycle => true
  | .writeByte _ => true
  | .start => true
  | .stop => true
  | .writeBuffer bytes count => decide (count ≤ bytes.length)
  | .flush => true
  | .preInit => true

end Sys2Proof
end

