-- ==== Sys2Proof/Decode.lean ====
section
/-! DEFINITION. The decoder of the 8-bit command word with its typed argument list, and the encoder (30_encoding.md R80 to
R84). The decoder is total: what is no operation of the port it is read from is rejected by name. -/

namespace Sys2Proof

/-- Why the decoder rejects a word. -/
inductive DecodeReject where
  /-- At the host's port: the opcode is none of 0x01..0x05 (30_encoding.md R84). -/
  | unknownCommand
  /-- At the internal port: the code is none of 0x80..0x89 (30_encoding.md R83). -/
  | notMicroOperation
  /-- The arguments are not of the type the opcode's row gives (30_encoding.md R82 says they always are). -/
  | argsIllTyped
  deriving DecidableEq, Repr

/-- A host command: opcode and arguments (30_encoding.md R80). The opcode is looked at first, so an unknown one is unknown
with any arguments (60_exceptions.md R265 step 1). -/
def decodeHost (w : Byte) (a : Args) : Except DecodeReject Instr :=
  match w.toNat, a with
  | 0x01, .pins clk data => .ok (.init clk data)
  | 0x01, _ => .error .argsIllTyped
  | 0x02, .levels vs => .ok (.writeColor vs)
  | 0x02, _ => .error .argsIllTyped
  | 0x03, .strings ss => .ok (.rawColor ss)
  | 0x03, _ => .error .argsIllTyped
  | 0x04, .ints xs => .ok (.setRemap xs)
  | 0x04, _ => .error .argsIllTyped
  | 0x05, .ints xs => .ok (.setCurrent xs)
  | 0x05, _ => .error .argsIllTyped
  | _, _ => .error .unknownCommand

/-- A micro-operation code with its operands (30_encoding.md R83). -/
def decodeMicro (w : Byte) (a : Args) : Except DecodeReject Instr :=
  match w.toNat, a with
  | 0x80, .lineLevel l v => .ok (.setLine l v)
  | 0x80, _ => .error .argsIllTyped
  | 0x81, .lineMode l m => .ok (.setMode l m)
  | 0x81, _ => .error .argsIllTyped
  | 0x82, .bit b => .ok (.writeBit b)
  | 0x82, _ => .error .argsIllTyped
  | 0x83, .none => .ok .ackCycle
  | 0x83, _ => .error .argsIllTyped
  | 0x84, .byte x => .ok (.writeByte x)
  | 0x84, _ => .error .argsIllTyped
  | 0x85, .none => .ok .start
  | 0x85, _ => .error .argsIllTyped
  | 0x86, .none => .ok .stop
  | 0x86, _ => .error .argsIllTyped
  | 0x87, .buffer bytes count => .ok (.writeBuffer bytes count)
  | 0x87, _ => .error .argsIllTyped
  | 0x88, .none => .ok .flush
  | 0x88, _ => .error .argsIllTyped
  | 0x89, .none => .ok .preInit
  | 0x89, _ => .error .argsIllTyped
  | _, _ => .error .notMicroOperation

/-- The decoder: the operation a command word and its arguments stand for at a port. -/
def decode (p : Port) (w : Byte) (a : Args) : Except DecodeReject Instr :=
  match p with
  | .host => decodeHost w a
  | .micro => decodeMicro w a

/-- The port an operation is issued at (00_scope.md R3). -/
def Instr.port (i : Instr) : Port :=
  match i with
  | .init _ _ | .writeColor _ | .rawColor _ | .setRemap _ | .setCurrent _ => .host
  | .setLine _ _ | .setMode _ _ | .writeBit _ | .ackCycle | .writeByte _ | .start | .stop | .writeBuffer _ _ | .flush
  | .preInit => .micro

/-- The operation code (the opcode columns of 30_encoding.md R80 and R83). -/
def Instr.opcode (i : Instr) : Byte :=
  match i with
  | .init _ _ => 0x01
  | .writeColor _ => 0x02
  | .rawColor _ => 0x03
  | .setRemap _ => 0x04
  | .setCurrent _ => 0x05
  | .setLine _ _ => 0x80
  | .setMode _ _ => 0x81
  | .writeBit _ => 0x82
  | .ackCycle => 0x83
  | .writeByte _ => 0x84
  | .start => 0x85
  | .stop => 0x86
  | .writeBuffer _ _ => 0x87
  | .flush => 0x88
  | .preInit => 0x89

/-- The argument list of an operation (30_encoding.md R82; for a micro-operation, its operands). -/
def Instr.args (i : Instr) : Args :=
  match i with
  | .init clk data => .pins clk data
  | .writeColor vs => .levels vs
  | .rawColor ss => .strings ss
  | .setRemap xs => .ints xs
  | .setCurrent xs => .ints xs
  | .setLine l v => .lineLevel l v
  | .setMode l m => .lineMode l m
  | .writeBit b => .bit b
  | .ackCycle => .none
  | .writeByte x => .byte x
  | .start => .none
  | .stop => .none
  | .writeBuffer bytes count => .buffer bytes count
  | .flush => .none
  | .preInit => .none

/-- The encoder: the port an operation is issued at, its command word and its arguments. -/
def encode (i : Instr) : Port × Byte × Args := (i.port, i.opcode, i.args)

/-- The port at which a table word is an operation: 0x80 and above is a micro-operation's code (30_encoding.md R83), any
other word is the host's. -/
def Port.ofWord (w : Byte) : Port :=
  if 0x80 ≤ w.toNat then .micro else .host

/-- The arguments that stand for "operand words of zeros" beside a bare table word: the least number of arguments the row
requires, each zero, or no pin, or the first name of its row. The opcode table gives no operand any bits. DESIGN CHOICE,
assumption log entry 24. -/
def Args.zero (w : Byte) : Args :=
  match w.toNat with
  | 0x01 => .pins .none .none
  | 0x02 => .levels [.rat 0, .rat 0, .rat 0, .rat 0, .rat 0]
  | 0x03 => .strings [['0', '0', '0', '0', '0', '0', '0', '0', '0', '0']]
  | 0x04 => .ints [0, 0, 0, 0, 0]
  | 0x05 => .ints [0, 0]
  | 0x80 => .lineLevel .clk false
  | 0x81 => .lineMode .clk .input
  | 0x82 => .bit false
  | 0x84 => .byte 0
  | 0x87 => .buffer [] 0
  | _ => .none

/-- The instruction the decoder reads from a word of spec/opcode_table.json: the word is the 8-bit command word (R81: "There
are no other bits"), its arguments are those of `Args.zero`. -/
def decodeTableWord (nbits w : Nat) : Option Instr :=
  if nbits ≤ 8 ∧ w < 256 then
    match decode (Port.ofWord (BitVec.ofNat 8 w)) (BitVec.ofNat 8 w) (Args.zero (BitVec.ofNat 8 w)) with
    | .ok i => some i
    | .error _ => none
  else none

end Sys2Proof
end

