-- ==== Sys2Proof/Machine/State.lean ====
section
/-! DEFINITION. The state record of 10_state.md R20, the events of its trace, the result codes, the host's side of the command
interface, the refusals of 60_exceptions.md R263, and the state after reset. -/

namespace Sys2Proof.Machine

/-- The trace alphabet (30_encoding.md R90): every event the block emits is one of three. -/
inductive Event where
  /-- `level(l, v)`: the block drives line l to logical level v. -/
  | level (l : Line) (v : Level)
  /-- `mode(l, m)`: the block sets line l to mode m. -/
  | mode (l : Line) (m : Mode)
  /-- `settle`: a wait of at least T_SETTLE (R92). -/
  | settle
  deriving DecidableEq, Repr

/-- The four result codes of a host command (60_exceptions.md R260). -/
inductive ResultCode where
  | ok
  | notEnoughArgs
  | notRegistered
  | unknownCommand
  deriving DecidableEq, Repr

/-- What the host may do next (20_memory.md R67, R68): issue a command, or, between two commands, change the external remap
store. -/
inductive HostMove where
  | command (word : Byte) (args : Args)
  | remapStore (entries : Five Int) (valid : Bool)
  deriving DecidableEq, Repr

/-- What the state record holds for one line: PIN_l, MODE[l] and LATCH[l] (10_state.md R25, R28). `none` in `pin` means that
no pin is bound, `none` in `mode` or `latch` that the pin's state is unknown. -/
structure LineState where
  pin : Option PinId
  mode : Option Mode
  latch : Option Level
  deriving DecidableEq, Repr

/-- The state. `lvl` to `trace` are the record of 10_state.md R20; the last three fields are the model's own and hold the
host's side of the interface. -/
structure State where
  /-- LVL[0..4], the channel state register file (R21). -/
  lvl : Five UInt10
  /-- CUR_RGB (R23). -/
  curRgb : Byte
  /-- CUR_CW (R23). -/
  curCw : Byte
  /-- PIN_CLK, MODE[CLK], LATCH[CLK] (R25, R28). -/
  clk : LineState
  /-- PIN_DATA, MODE[DATA], LATCH[DATA] (R25, R28). -/
  data : LineState
  /-- INITED (R26). -/
  inited : Bool
  /-- REMAP[0..4], integers as the remap store holds them (R30). -/
  remap : Five Int
  /-- REMAP_VALID (R30). -/
  remapValid : Bool
  /-- TRACE, oldest event first (R31). -/
  trace : List Event
  /-- The model's own: the result codes the host has received, oldest first (60_exceptions.md R260 "returned to the host and
  not held as state"; 00_scope.md R17). Assumption log entry 6. -/
  results : List ResultCode
  /-- The model's own: the host's moves to come, the next one first (20_memory.md R67). Assumption log entry 6. -/
  inbox : List HostMove
  /-- The model's own: a micro-operation code with its operands that runs next, as a step of its own. No host move can fill it
  (00_scope.md R3). Assumption log entry 7. -/
  micro : Option (Byte × Args)
  deriving DecidableEq, Repr

/-- Faults: none. The block has no trap mechanism, its transport cannot fail and hardware faults go undetected
(40_bit_transport.md R126, 60_exceptions.md R267, R269). No instruction raises one, so this type is empty. -/
inductive Fault where
  deriving DecidableEq, Repr

/-- Refusals: the spec's REFUSED (60_exceptions.md R263) with its closed list of seven reasons, each safe ("Each refusal errs
toward unprovable"); and the model's own, for inputs that cannot stand at the block's interface. -/
inductive Refusal where
  /-- The dispatch's stub for an instruction without a meaning; safe. No arm uses it. -/
  | notModelled (mnemonic : String)
  /-- BAD_ARITY (R175, R263): WRITE_COLOR with an argument list whose length is not 5; safe. -/
  | badArity
  /-- LEVEL_INPUT_OUT_OF_RANGE (R170, R175, R263): WRITE_COLOR with an input outside [0, 255], NaN or infinite; safe. -/
  | levelInputOutOfRange
  /-- REMAP_ENTRY_OUT_OF_RANGE (R175, R263): WRITE_COLOR or RAW_COLOR while some REMAP[i] is outside 0..4; safe. -/
  | remapEntryOutOfRange
  /-- RAW_HEX_MALFORMED (R181, R263): RAW_COLOR whose args[0] is not exactly 10 hex digits; safe. -/
  | rawHexMalformed
  /-- REMAP_ARG_OUT_OF_RANGE (R182, R263): SET_REMAP with one of args[0..4] outside 0..4; safe. -/
  | remapArgOutOfRange
  /-- CURRENT_ARG_OUT_OF_RANGE (R221, R224, R263): SET_CURRENT with args[0] or args[1] outside 0..221; safe. -/
  | currentArgOutOfRange
  /-- PIN_CONFLICT (R232, R263): INIT whose two roles resolve to one pin; safe. -/
  | pinConflict
  /-- The model's own: WRITE_BUFFER with a count above its buffer's length, which R152's operand line excludes; safe.
  DESIGN CHOICE, assumption log entry 22. -/
  | countBeyondBuffer
  /-- The model's own: arguments that are not of the type the opcode's row gives (30_encoding.md R82: the parser delivers them
  "converted to their type"); raised by the step, safe. DESIGN CHOICE, assumption log entry 8. -/
  | argsIllTyped
  /-- The model's own: the internal port holds a code outside 0x80..0x89 (R83), which nothing puts there; raised by the step,
  safe. DESIGN CHOICE, assumption log entry 7. -/
  | notMicroOperation
  deriving DecidableEq, Repr

/-- The state after reset (70_reset_and_hazards.md R290, 10_state.md R20). The remap store's contents are the OPEN parameters
P_REMAP_AT_RESET and P_REMAP_VALID_AT_RESET; the model's own fields are empty (DESIGN CHOICE, entries 6 and 7). -/
def State.reset : State where
  lvl := ⟨0, 0, 0, 0, 0⟩
  curRgb := Config.curDefault
  curCw := Config.curDefault
  clk := ⟨none, none, none⟩
  data := ⟨none, none, none⟩
  inited := false
  remap := Config.remapAtReset
  remapValid := Config.remapValidAtReset
  trace := []
  results := []
  inbox := []
  micro := none

end Sys2Proof.Machine
end

