-- ==== Sys2Proof/Machine/Ops.lean ====
section
/-! DEFINITION. The shared operations over State: reading and writing a line's registers, emitting an event, ending a host
command with its result code (the block's only error mechanism, 60_exceptions.md R269), and the gate of the three registered
commands. -/

namespace Sys2Proof.Machine

/-- The registers of one line (10_state.md R25, R28). -/
def State.line (s : State) (l : Line) : LineState :=
  match l with
  | .clk => s.clk
  | .data => s.data

/-- Writes the registers of one line. -/
def State.withLine (s : State) (l : Line) (x : LineState) : State :=
  match l with
  | .clk => { s with clk := x }
  | .data => { s with data := x }

/-- `bound(l)`: a pin is bound to the line (40_bit_transport.md R120). -/
def State.bound (s : State) (l : Line) : Bool := (s.line l).pin.isSome

/-- `emit(e)`: appends an event to TRACE (00_scope.md R12). -/
def State.emit (e : Event) (s : State) : State := { s with trace := s.trace ++ [e] }

/-- `s.LATCH[l] <- v` (10_state.md R28). -/
def State.setLatch (l : Line) (v : Level) (s : State) : State :=
  s.withLine l { s.line l with latch := some v }

/-- `s.MODE[l] <- m` (10_state.md R28). -/
def State.setModeReg (l : Line) (m : Mode) (s : State) : State :=
  s.withLine l { s.line l with mode := some m }

/-- `s.LVL <- x`, all five entries at once (20_memory.md R64). -/
def State.setLvl (x : Five UInt10) (s : State) : State := { s with lvl := x }

/-- `s.CUR_RGB <- rgb; s.CUR_CW <- cw`, written together (20_memory.md R64). -/
def State.setCurrents (rgb cw : Byte) (s : State) : State := { s with curRgb := rgb, curCw := cw }

/-- `return r`: a host command ends with result code r, which the host receives (00_scope.md R12, 60_exceptions.md R260). An
error is a result code in place of OK and nothing else: no state is saved, no mode changes (R269). -/
def State.ret (r : ResultCode) (s : State) : State := { s with results := s.results ++ [r] }

/-- The host's command index, the model's analogue of a program counter (10_state.md R33): how many commands have ended. -/
def State.commandIndex (s : State) : Nat := s.results.length

/-- The gate of a registered command (60_exceptions.md R265 steps 2 and 3): NOT_REGISTERED while INITED is false, then
NOT_ENOUGH_ARGS when argc is below the required count (`operands` is then `none`), otherwise the command itself. -/
def whenRegistered {α : Type} (s : State) (operands : Option α) (run : α → Host.Outcome State Fault Refusal) :
    Host.Outcome State Fault Refusal :=
  if s.inited then
    match operands with
    | none => .next (s.ret .notEnoughArgs)
    | some x => run x
  else .next (s.ret .notRegistered)

/-- The pad level of a line, a derived observable (10_state.md R29): LATCH[l] while MODE[l] = OUT, the free draw ACK_DRAW while
MODE[l] = IN (`look` numbers the looks, so that each one is fresh), unknown (`none`) when MODE[l] is unknown or nothing was
driven. Assumption log entry 4. -/
def State.padLevel (s : State) (l : Line) (look : Nat) : Option Level :=
  match (s.line l).mode with
  | none => none
  | some .output => (s.line l).latch
  | some .input => some (Config.ackDraw look)

end Sys2Proof.Machine
end

