-- ==== Sys2Proof/Machine/BitTransport.lean ====
section
/-! DEFINITION. The bit-level transport of 40_bit_transport.md: SET_LINE, SET_MODE and WRITE_BIT. Each is a total operation
on the state ("this layer cannot fail", R126) and then an instruction's meaning. -/

namespace Sys2Proof.Machine

/-- SET_LINE(l, v) (40_bit_transport.md R122). On an unbound line only the settle is emitted (R121, D19). -/
def setLine (l : Line) (v : Level) (s : State) : State :=
  (if s.bound l then (s.emit (.level l v)).setLatch l v else s).emit .settle

/-- SET_MODE(l, m) (40_bit_transport.md R124). It emits no settle (D16, assumption log entry 16) and keeps LATCH[l] (D17). -/
def setMode (l : Line) (m : Mode) (s : State) : State :=
  if s.bound l then (s.emit (.mode l m)).setModeReg l m else s

/-- WRITE_BIT(b) (40_bit_transport.md R125). -/
def writeBit (b : Level) (s : State) : State :=
  setLine .clk false (setLine .clk true (setLine .data b s))

/-- The meaning of SET_LINE. -/
def execSetLine (l : Line) (v : Level) (s : State) : Host.Outcome State Fault Refusal := .next (setLine l v s)

/-- The meaning of SET_MODE. -/
def execSetMode (l : Line) (m : Mode) (s : State) : Host.Outcome State Fault Refusal := .next (setMode l m s)

/-- The meaning of WRITE_BIT. -/
def execWriteBit (b : Level) (s : State) : Host.Outcome State Fault Refusal := .next (writeBit b s)

end Sys2Proof.Machine
end

