-- ==== Sys2Proof/Machine/ByteTransport.lean ====
section
/-! DEFINITION. The byte and frame transport of 41_byte_frame_transport.md: ACK_CYCLE, WRITE_BYTE, START, STOP and
WRITE_BUFFER. -/

namespace Sys2Proof.Machine

/-- ACK_CYCLE (41_byte_frame_transport.md R145). It samples nothing from DATA (R146) and keeps LATCH[DATA] (D17). -/
def ackCycle (s : State) : State :=
  setMode .data .output (setLine .clk false (setLine .clk true (setMode .data .input s)))

/-- WRITE_BYTE(x) (41_byte_frame_transport.md R148): bits 7 down to 0, then the acknowledgment cycle. -/
def writeByte (x : Byte) (s : State) : State :=
  ackCycle ([7, 6, 5, 4, 3, 2, 1, 0].foldl (fun t k => writeBit (x.getLsbD k) t) s)

/-- START (41_byte_frame_transport.md R150). -/
def start (s : State) : State := setLine .clk false (setLine .data false s)

/-- STOP (41_byte_frame_transport.md R151). -/
def stop (s : State) : State := setLine .data true (setLine .clk true s)

/-- WRITE_BUFFER(bytes, count) (41_byte_frame_transport.md R152): START, the first `count` bytes in index order, STOP. -/
def writeBuffer (bytes : List Byte) (count : Nat) (s : State) : State :=
  stop ((bytes.take count).foldl (fun t x => writeByte x t) (start s))

/-- The meaning of ACK_CYCLE. -/
def execAckCycle (s : State) : Host.Outcome State Fault Refusal := .next (ackCycle s)

/-- The meaning of WRITE_BYTE. -/
def execWriteByte (x : Byte) (s : State) : Host.Outcome State Fault Refusal := .next (writeByte x s)

/-- The meaning of START. -/
def execStart (s : State) : Host.Outcome State Fault Refusal := .next (start s)

/-- The meaning of STOP. -/
def execStop (s : State) : Host.Outcome State Fault Refusal := .next (stop s)

/-- The meaning of WRITE_BUFFER, whose count is at most its buffer's length (R152); a greater count is refused by a name of the
model's own (DESIGN CHOICE, assumption log entry 22). -/
def execWriteBuffer (bytes : List Byte) (count : Nat) (s : State) : Host.Outcome State Fault Refusal :=
  if count ≤ bytes.length then .next (writeBuffer bytes count s) else .refused .countBeyondBuffer

end Sys2Proof.Machine
end

