-- ==== Sys2Proof/Machine/Flags.lean ====
section
/-! DEFINITION. The two Boolean flags of the block, INITED and REMAP_VALID, and what sets them with the remap table
(10_state.md R26, R30, R34). There are no condition codes. -/

namespace Sys2Proof.Machine

/-- `s.INITED <- true` (43_current_and_init.md R232): the three commands are registered. No operation clears it (R26). -/
def State.register (s : State) : State := { s with inited := true }

/-- `s.REMAP <- r; s.REMAP_VALID <- true` (42_channel_encoding.md R182). -/
def State.configureRemap (r : Five Int) (s : State) : State := { s with remap := r, remapValid := true }

/-- The identity remap (0, 1, 2, 3, 4) (43_current_and_init.md R232). -/
def identityRemap : Five Int := ⟨0, 1, 2, 3, 4⟩

/-- INIT's default: the identity remap "only if no remap has been configured yet" (43_current_and_init.md R232). -/
def State.defaultRemap (s : State) : State :=
  if s.remapValid then s else s.configureRemap identityRemap

end Sys2Proof.Machine
end

