-- ==== Sys2Proof/Machine/Operands.lean ====
section
/-! DEFINITION. The operand conversions of 30_encoding.md R98, each a pure function: range checks, P_SCALE, HEX5, CUR_XFORM,
PACK, the gather through REMAP and the argument-count forms. -/

namespace Sys2Proof

/-- Entry k of five, k in 0..4 (00_scope.md R11: arrays count from 0). -/
def Five.get {α : Type} (x : Five α) (k : Fin 5) : α :=
  match k with
  | 0 => x.c0
  | 1 => x.c1
  | 2 => x.c2
  | 3 => x.c3
  | 4 => x.c4

/-- One function over all five entries. -/
def Five.map {α β : Type} (f : α → β) (x : Five α) : Five β :=
  ⟨f x.c0, f x.c1, f x.c2, f x.c3, f x.c4⟩

/-- The entries in index order. -/
def Five.toList {α : Type} (x : Five α) : List α := [x.c0, x.c1, x.c2, x.c3, x.c4]

/-- A check of all five entries: the checked values if every entry passes, `none` if one does not. -/
def Five.check {α β : Type} (f : α → Option β) (x : Five α) : Option (Five β) :=
  match f x.c0, f x.c1, f x.c2, f x.c3, f x.c4 with
  | some a, some b, some c, some d, some e => some ⟨a, b, c, d, e⟩
  | _, _, _, _, _ => none

namespace Machine

/-- A list of exactly five (WRITE_COLOR's arity, 42_channel_encoding.md R175). -/
def exactlyFive {α : Type} (xs : List α) : Option (Five α) :=
  match xs with
  | [a, b, c, d, e] => some ⟨a, b, c, d, e⟩
  | _ => none

/-- The first argument, if argc is at least 1; further arguments are ignored (60_exceptions.md R262). -/
def firstOne {α : Type} (xs : List α) : Option α :=
  match xs with
  | a :: _ => some a
  | _ => none

/-- The first two arguments, if argc is at least 2; further arguments are ignored (60_exceptions.md R262). -/
def firstTwo {α : Type} (xs : List α) : Option (α × α) :=
  match xs with
  | a :: b :: _ => some (a, b)
  | _ => none

/-- The first five arguments, if argc is at least 5; further arguments are ignored (60_exceptions.md R262). -/
def firstFive {α : Type} (xs : List α) : Option (Five α) :=
  match xs with
  | a :: b :: c :: d :: e :: _ => some ⟨a, b, c, d, e⟩
  | _ => none

/-- The input domain of WRITE_COLOR (42_channel_encoding.md R170): a rational v with 0 ≤ v ≤ 255, here over its numerator and
(positive) denominator; NaN and the infinities are outside. -/
def levelInRange (v : LevelInput) : Option Rat :=
  match v with
  | .rat q => if 0 ≤ q.num ∧ q.num ≤ 255 * (q.den : Int) then some q else none
  | .nan => none
  | .posInf => none
  | .negInf => none

/-- P_SCALE (42_channel_encoding.md R171): floor(v * 1023 / 255), exact, as the floor division of numerator by denominator.
The rounding is the spec's own choice D4, assumption log entry 9. -/
def pScale (v : Rat) : UInt10 :=
  BitVec.ofInt 10 (v.num * 1023 / ((v.den : Int) * 255))

/-- A remap entry in 0..4, as the channel number it is (42_channel_encoding.md R175, R182). -/
def remapIndex (r : Int) : Option (Fin 5) :=
  if 0 ≤ r ∧ r ≤ 4 then some (Fin.ofNat 5 r.toNat) else none

/-- The gather of WRITE_COLOR (42_channel_encoding.md R175): physical slot i takes P_SCALE of logical input REMAP[i]. The
direction is the spec's own choice D6 (90_conflicts.md C6), assumption log entry 11. -/
def gather (v : Five Rat) (r : Five (Fin 5)) : Five UInt10 :=
  r.map (fun i => pScale (v.get i))

/-- The value of one hex digit 0-9, A-F or a-f (42_channel_encoding.md R181). -/
def hexVal (c : Char) : Option Nat :=
  if 48 ≤ c.toNat ∧ c.toNat ≤ 57 then some (c.toNat - 48)
  else if 65 ≤ c.toNat ∧ c.toNat ≤ 70 then some (c.toNat - 55)
  else if 97 ≤ c.toNat ∧ c.toNat ≤ 102 then some (c.toNat - 87)
  else none

/-- One character pair of HEX5, the first one the high nibble (42_channel_encoding.md R181). -/
def hexPair (hi lo : Char) : Option Nat :=
  match hexVal hi, hexVal lo with
  | some h, some l => some (16 * h + l)
  | _, _ => none

/-- HEX5 (42_channel_encoding.md R181): exactly 10 hex digits give five integers 0..255, pair k giving b[k]; any other string
gives `none`. The format is the spec's own choice D8, assumption log entry 12. -/
def hex5 (s : Str) : Option (Five Nat) :=
  match s with
  | [h0, l0, h1, l1, h2, l2, h3, l3, h4, l4] =>
    match hexPair h0 l0, hexPair h1 l1, hexPair h2 l2, hexPair h3 l3, hexPair h4 l4 with
    | some a, some b, some c, some d, some e => some ⟨a, b, c, d, e⟩
    | _, _, _, _, _ => none
  | _ => none

/-- RAW_COLOR's bytes as colour inputs: "integers 0..255 taken as rationals" (42_channel_encoding.md R180). -/
def bytesAsInputs (b : Five Nat) : Five LevelInput :=
  b.map (fun (n : Nat) => LevelInput.rat (n : Rat))

/-- The input domain of CUR_XFORM, 0..221 (43_current_and_init.md R221). -/
def currentInRange (x : Int) : Bool := decide (0 ≤ x ∧ x ≤ 221)

/-- CUR_XFORM (43_current_and_init.md R220): above 63 add 34, else unchanged; a UInt8 for the inputs of `currentInRange`. -/
def curXform (x : Int) : Byte :=
  BitVec.ofInt 8 (if x > 63 then x + 34 else x)

/-- The low byte of PACK (42_channel_encoding.md R198): zext_8(x[4:0]). -/
def packLo (x : UInt10) : Byte := (x.extractLsb' 0 5).setWidth 8

/-- The high byte of PACK (42_channel_encoding.md R198): zext_8(x[9:5]). -/
def packHi (x : UInt10) : Byte := (x.extractLsb' 5 5).setWidth 8

end Machine

end Sys2Proof
end

