-- ==== Sys2Proof/Machine/Frame.lean ====
section
/-! DEFINITION. The frame builder's pure functions (42_channel_encoding.md R191 to R200) and the frame layout of
30_encoding.md R95. -/

namespace Sys2Proof.Machine

/-- FRAME_LEN (00_scope.md R9): bytes per frame. -/
def frameLen : Nat := 17

/-- ALL_ZERO(L) (42_channel_encoding.md R191). -/
def allZero (L : Five UInt10) : Bool :=
  L.c0 == 0 && L.c1 == 0 && L.c2 == 0 && L.c3 == 0 && L.c4 == 0

/-- The three address and enable modes of FLUSH (00_scope.md R15). -/
inductive FrameMode where
  | mode2
  | mode3
  | mode5
  deriving DecidableEq, Repr

/-- SELECT_MODE(L) (42_channel_encoding.md R193), used with ALL_ZERO(L) false. -/
def selectMode (L : Five UInt10) : FrameMode :=
  if L.c0 = 0 ∧ L.c1 = 0 ∧ L.c2 = 0 ∧ (L.c3 ≠ 0 ∨ L.c4 ≠ 0) then .mode2
  else if L.c3 = 0 ∧ L.c4 = 0 ∧ (L.c0 ≠ 0 ∨ L.c1 ≠ 0 ∨ L.c2 ≠ 0) then .mode3
  else .mode5

/-- ADDR(m), byte f[0] (42_channel_encoding.md R194). -/
def frameAddr (m : FrameMode) : Byte :=
  match m with
  | .mode2 => Config.addrOut2ch
  | .mode3 => Config.addrOut3ch
  | .mode5 => Config.addrOut

/-- EN(m), byte f[1] (42_channel_encoding.md R194). -/
def frameEnable (m : FrameMode) : Byte :=
  match m with
  | .mode2 => Config.en2ch
  | .mode3 => Config.en3ch
  | .mode5 => Config.en5ch

/-- The RGB current byte of a mode (42_channel_encoding.md R196): 0 in MODE2, else the RGB code. -/
def rgbByte (m : FrameMode) (rgb : Byte) : Byte := if m = .mode2 then 0 else rgb

/-- The CW current byte of a mode (42_channel_encoding.md R196): 0 in MODE3, else the CW code. -/
def cwByte (m : FrameMode) (cw : Byte) : Byte := if m = .mode3 then 0 else cw

/-- The ten data bytes f[7..16] (42_channel_encoding.md R198): for each channel its low byte, then its high byte. -/
def dataBytes (L : Five UInt10) : List Byte :=
  L.toList.flatMap (fun x => [packLo x, packHi x])

/-- BUILD_FRAME(L, rgb, cw) (42_channel_encoding.md R200): address, enable, three RGB current bytes (f[2..4]), two CW current
bytes (f[5..6]), ten data bytes (f[7..16]). -/
def buildFrame (L : Five UInt10) (rgb cw : Byte) : List Byte :=
  [frameAddr (selectMode L), frameEnable (selectMode L),
    rgbByte (selectMode L) rgb, rgbByte (selectMode L) rgb, rgbByte (selectMode L) rgb,
    cwByte (selectMode L) cw, cwByte (selectMode L) cw] ++ dataBytes L

/-- A frame of the sleep path (42_channel_encoding.md R192): an address byte and sixteen bytes of 0. -/
def zeroFrame (addr : Byte) : List Byte := addr :: List.replicate 16 0

end Sys2Proof.Machine
end

