-- ==== Sys2Proof/Machine/Channel.lean ====
section
/-! DEFINITION. Channel state and frame encoding (42_channel_encoding.md): FLUSH, WRITE_COLOR, RAW_COLOR, SET_REMAP. -/

namespace Sys2Proof.Machine

/-- FLUSH (42_channel_encoding.md R190). With every level zero: two all-zero frames, to the output address and then to the
sleep address (R192; that the first address is P_ADDR_OUT is the spec's own choice D13, assumption log entry 21). Otherwise the
one frame of BUILD_FRAME. -/
def flush (s : State) : State :=
  if allZero s.lvl then
    writeBuffer (zeroFrame Config.addrSleep) frameLen (writeBuffer (zeroFrame Config.addrOut) frameLen s)
  else writeBuffer (buildFrame s.lvl s.curRgb s.curCw) frameLen s

/-- WRITE_COLOR on five inputs (42_channel_encoding.md R175): every check before any write (60_exceptions.md R266), then LVL,
FLUSH and OK. -/
def colorWrite (vs : Five LevelInput) (s : State) : Host.Outcome State Fault Refusal :=
  match vs.check levelInRange with
  | none => .refused .levelInputOutOfRange
  | some v =>
    match s.remap.check remapIndex with
    | none => .refused .remapEntryOutOfRange
    | some r => .next ((flush (s.setLvl (gather v r))).ret .ok)

/-- The meaning of FLUSH. -/
def execFlush (s : State) : Host.Outcome State Fault Refusal := .next (flush s)

/-- The meaning of WRITE_COLOR (42_channel_encoding.md R175). It does not read INITED (10_state.md R26). -/
def execWriteColor (vs : List LevelInput) (s : State) : Host.Outcome State Fault Refusal :=
  match exactlyFive vs with
  | none => .refused .badArity
  | some five => colorWrite five s

/-- The meaning of RAW_COLOR (42_channel_encoding.md R180): HEX5 of args[0], then WRITE_COLOR on its five bytes. -/
def execRawColor (args : List Str) (s : State) : Host.Outcome State Fault Refusal :=
  whenRegistered s (firstOne args) fun str =>
    match hex5 str with
    | none => .refused .rawHexMalformed
    | some b => colorWrite (bytesAsInputs b) s

/-- The meaning of SET_REMAP (42_channel_encoding.md R182): no frame is sent and LVL is not recomputed (D23). -/
def execSetRemap (args : List Int) (s : State) : Host.Outcome State Fault Refusal :=
  whenRegistered s (firstFive args) fun r =>
    match r.check remapIndex with
    | none => .refused .remapArgOutOfRange
    | some _ => .next ((s.configureRemap r).ret .ok)

end Sys2Proof.Machine
end

