-- ==== Sys2Proof/Machine/Current.lean ====
section
/-! DEFINITION. Current configuration (43_current_and_init.md): SET_CURRENT. -/

namespace Sys2Proof.Machine

/-- The meaning of SET_CURRENT (43_current_and_init.md R224): both codes through CUR_XFORM, then FLUSH with the existing LVL. -/
def execSetCurrent (args : List Int) (s : State) : Host.Outcome State Fault Refusal :=
  whenRegistered s (firstTwo args) fun x =>
    if currentInRange x.1 && currentInRange x.2 then
      .next ((flush (s.setCurrents (curXform x.1) (curXform x.2))).ret .ok)
    else .refused .currentArgOutOfRange

end Sys2Proof.Machine
end

