-- ==== Sys2Proof/Machine/Init.lean ====
section
/-! DEFINITION. Initialisation (43_current_and_init.md): PRE_INIT and INIT. -/

namespace Sys2Proof.Machine

/-- PRE_INIT (43_current_and_init.md R230). The order and the four settles are the spec's own choice D15, assumption log entry
15. -/
def preInit (s : State) : State :=
  setLine .clk false (setLine .data false
    ((setMode .clk .output ((setMode .data .output s).emit .settle)).emit .settle))

/-- Binds a line to what the pin-role resolver answered (43_current_and_init.md R232): a different pin makes MODE and LATCH
unknown (D28, assumption log entry 18), the same one keeps them. -/
def State.rebind (l : Line) (p : Option PinId) (s : State) : State :=
  s.withLine l (if (s.line l).pin = p then s.line l else ⟨p, none, none⟩)

/-- Both roles resolve to one pin (43_current_and_init.md R232). -/
def pinConflict (clk data : Option PinId) : Bool := clk.isSome && clk == data

/-- The meaning of PRE_INIT. -/
def execPreInit (s : State) : Host.Outcome State Fault Refusal := .next (preInit s)

/-- The meaning of INIT (43_current_and_init.md R232). It does not read INITED, sends no frame and keeps LVL and the current
codes (D21, assumption log entry 18). -/
def execInit (clk data : Option PinId) (s : State) : Host.Outcome State Fault Refusal :=
  if pinConflict clk data then .refused .pinConflict
  else .next ((preInit ((s.rebind .clk clk).rebind .data data)).register.defaultRemap.ret .ok)

end Sys2Proof.Machine
end

