-- ==== Sys2Proof/Machine/Dispatch.lean ====
section
/-! DEFINITION. One arm per operation: each calls its meaning. -/

namespace Sys2Proof.Machine

def exec (i : Instr) (s : State) : Host.Outcome State Fault Refusal :=
  match i with
  | .init clk data => Sys2Proof.Machine.execInit clk data s
  | .writeColor vs => Sys2Proof.Machine.execWriteColor vs s
  | .rawColor args => Sys2Proof.Machine.execRawColor args s
  | .setRemap args => Sys2Proof.Machine.execSetRemap args s
  | .setCurrent args => Sys2Proof.Machine.execSetCurrent args s
  | .setLine l v => Sys2Proof.Machine.execSetLine l v s
  | .setMode l m => Sys2Proof.Machine.execSetMode l m s
  | .writeBit b => Sys2Proof.Machine.execWriteBit b s
  | .ackCycle => Sys2Proof.Machine.execAckCycle s
  | .writeByte x => Sys2Proof.Machine.execWriteByte x s
  | .start => Sys2Proof.Machine.execStart s
  | .stop => Sys2Proof.Machine.execStop s
  | .writeBuffer bytes count => Sys2Proof.Machine.execWriteBuffer bytes count s
  | .flush => Sys2Proof.Machine.execFlush s
  | .preInit => Sys2Proof.Machine.execPreInit s

end Sys2Proof.Machine
end

