-- ==== Sys2Proof/Machine/Issue.lean ====
section
/-! DEFINITION. What one issued thing does: a host command, a host change of the remap store, a selected micro-operation; and
how a bare table word is placed where the step takes its next one. -/

namespace Sys2Proof.Machine

/-- A host command (30_encoding.md R80): decoded at the host's port and executed; an unknown opcode returns UNKNOWN_COMMAND with
no state change and no event (R84, 60_exceptions.md R264). -/
def runCommand (w : Byte) (a : Args) (s : State) : Host.Outcome State Fault Refusal :=
  match decode .host w a with
  | .ok i => exec i s
  | .error .unknownCommand => .next (s.ret .unknownCommand)
  | .error .notMicroOperation => .refused .notMicroOperation
  | .error .argsIllTyped => .refused .argsIllTyped

/-- A micro-operation selected on the internal port (30_encoding.md R83; assumption log entry 7). -/
def runMicro (w : Byte) (a : Args) (s : State) : Host.Outcome State Fault Refusal :=
  match decode .micro w a with
  | .ok i => exec i s
  | .error .unknownCommand => .refused .notMicroOperation
  | .error .notMicroOperation => .refused .notMicroOperation
  | .error .argsIllTyped => .refused .argsIllTyped

/-- A host move between two commands: the external remap store now holds these (20_memory.md R68, 10_state.md R30). -/
def hostRemapStore (r : Five Int) (valid : Bool) (s : State) : State := { s with remap := r, remapValid := valid }

/-- The bare word w issued next: a micro-operation's code on the internal port, any other word as the host's next command (which
needs the internal port free), with the arguments of `Args.zero`. -/
def State.issueWord (w : Byte) (s : State) : State :=
  match Port.ofWord w with
  | .micro => { s with micro := some (w, Args.zero w) }
  | .host => { s with micro := none, inbox := .command w (Args.zero w) :: s.inbox }

end Sys2Proof.Machine
end

