-- ==== Sys2Proof/Machine/Step.lean ====
section
/-! DEFINITION. One step of the machine, and where a table word is placed for the next one. -/

namespace Sys2Proof.Machine

/-- One step: a selected micro-operation if there is one, else the host's next move (20_memory.md R67: "one at a time in the
order the host issues them"), each taken off before it runs; with no move to come the block waits and does nothing
(60_exceptions.md R277, 70_reset_and_hazards.md R291). A host command is one atomic step (20_memory.md R64). -/
def step (s : State) : Host.Outcome State Fault Refusal :=
  match s.micro, s.inbox with
  | some (w, a), _ => runMicro w a { s with micro := none }
  | none, [] => .next s
  | none, .command w a :: rest => runCommand w a { s with inbox := rest }
  | none, .remapStore r valid :: rest => .next (hostRemapStore r valid { s with inbox := rest })

/-- The table word w, with no bit above its nbits, placed so that the very next step runs it (assumption log entries 6, 7 and
24). -/
def State.withFetchWord (s : State) (nbits w : Nat) : State :=
  s.issueWord (BitVec.ofNat 8 (w % 2 ^ nbits))

end Sys2Proof.Machine
end

