-- ==== Sys2Proof/Machine/Waveform.lean ====
section
/-! DEFINITION. The wire waveforms of 30_encoding.md R91 to R94 as event lists, written from those tables and not from the
operations that emit them, and what a list of events does to a state when the block emits it. The claims compare the two. -/

namespace Sys2Proof.Machine

/-- The waveform of one data bit (30_encoding.md R91). -/
def bitWave (b : Level) : List Event :=
  [.level .data b, .settle, .level .clk true, .settle, .level .clk false, .settle]

/-- The waveform of the acknowledgment cycle (30_encoding.md R91). -/
def ackWave : List Event :=
  [.mode .data .input, .level .clk true, .settle, .level .clk false, .settle, .mode .data .output]

/-- The waveform of one byte (30_encoding.md R93): x[7] first, x[0] last, then the acknowledgment. -/
def byteWave (x : Byte) : List Event :=
  bitWave (x.getLsbD 7) ++ bitWave (x.getLsbD 6) ++ bitWave (x.getLsbD 5) ++ bitWave (x.getLsbD 4) ++
    bitWave (x.getLsbD 3) ++ bitWave (x.getLsbD 2) ++ bitWave (x.getLsbD 1) ++ bitWave (x.getLsbD 0) ++ ackWave

/-- The start condition's waveform (30_encoding.md R94). -/
def startWave : List Event := [.level .data false, .settle, .level .clk false, .settle]

/-- The stop condition's waveform (30_encoding.md R94). -/
def stopWave : List Event := [.level .clk true, .settle, .level .data true, .settle]

/-- The waveform of one frame (30_encoding.md R94). -/
def frameWave (bytes : List Byte) : List Event := startWave ++ bytes.flatMap byteWave ++ stopWave

/-- The waveform of PRE_INIT (43_current_and_init.md R230, its example). -/
def preInitWave : List Event :=
  [.mode .data .output, .settle, .mode .clk .output, .settle, .level .data false, .settle, .level .clk false, .settle]

/-- The line an event is on; a settle is on none. -/
def Event.line? (e : Event) : Option Line :=
  match e with
  | .level l _ => some l
  | .mode l _ => some l
  | .settle => none

/-- An event stands in TRACE when its line is bound; a settle always does (40_bit_transport.md R121). -/
def State.shows (s : State) (e : Event) : Bool :=
  match e.line? with
  | some l => s.bound l
  | none => true

/-- The level an event drives line l to, if it does. -/
def Event.levelOn (l : Line) (e : Event) : Option Level :=
  match e with
  | .level l' v => if l' = l then some v else none
  | .mode _ _ => none
  | .settle => none

/-- The mode an event sets line l to, if it does. -/
def Event.modeOn (l : Line) (e : Event) : Option Mode :=
  match e with
  | .level _ _ => none
  | .mode l' m => if l' = l then some m else none
  | .settle => none

/-- The last level a list of events drives line l to, if it drives it. -/
def lastLevel (l : Line) (es : List Event) : Option Level := (es.filterMap (Event.levelOn l)).getLast?

/-- The last mode a list of events sets line l to, if it sets it. -/
def lastMode (l : Line) (es : List Event) : Option Mode := (es.filterMap (Event.modeOn l)).getLast?

/-- A line's registers after the block has emitted the events: the last mode and the last level stay (10_state.md R28); an
unbound line keeps what it had (40_bit_transport.md R121). -/
def LineState.after (x : LineState) (l : Line) (es : List Event) : LineState :=
  if x.pin.isSome then
    { x with mode := (lastMode l es).or x.mode, latch := (lastLevel l es).or x.latch }
  else x

/-- The state after the block has emitted the events of a waveform: those of bound lines and the settles stand in TRACE, both
lines' registers hold what was last set, nothing else changes. -/
def State.drive (es : List Event) (s : State) : State :=
  { s with
    trace := s.trace ++ es.filter s.shows
    clk := s.clk.after .clk es
    data := s.data.after .data es }

/-- The waveform of FLUSH in a state (42_channel_encoding.md R190, R192): the two all-zero frames while every level is zero,
else the one frame built from LVL and the current codes. -/
def flushWave (s : State) : List Event :=
  if allZero s.lvl then frameWave (zeroFrame Config.addrOut) ++ frameWave (zeroFrame Config.addrSleep)
  else frameWave (buildFrame s.lvl s.curRgb s.curCw)

/-- How many settles a list of events holds. -/
def settleCount (es : List Event) : Nat := es.countP (· == .settle)

/-- The least duration of a list of events: each settle is a wait of at least T_SETTLE and nothing else is known to take time
(30_encoding.md R92, 41_byte_frame_transport.md R154). -/
def leastDuration (es : List Event) : Rat := settleCount es * Config.tSettle

end Sys2Proof.Machine
end

