-- ==== Sys2Proof/Safety.lean ====
section
/-! DEFINITION. The terms claims are stated in: invariants of the state, what a bus monitor reads from a trace, edges and the
line discipline, and the two state maps of the noninterference claims. Nothing here is used by the machine. -/

namespace Sys2Proof.Machine

/-- A current code SET_CURRENT can store: 64..97 are never produced (10_state.md R24). -/
def CodeReachable (c : Byte) : Prop := c.toNat ≤ 63 ∨ 98 ≤ c.toNat

/-- An unbound line's MODE and LATCH are unknown: nothing writes them (40_bit_transport.md R121), rebinding clears them
(43_current_and_init.md R232). -/
def LineState.unknownWhenUnbound (x : LineState) : Prop := x.pin = none → x.mode = none ∧ x.latch = none

/-- A bound line between host commands is an output with a known level (43_current_and_init.md R234, 41_byte_frame_transport.md
R151 corner (b)). -/
def LineState.idleWhenBound (x : LineState) : Prop := x.pin ≠ none → x.mode = some .output ∧ x.latch ≠ none

/-- What every step keeps, a micro-operation's step included. -/
structure State.WellBound (s : State) : Prop where
  /-- 10_state.md R24. -/
  rgbReachable : CodeReachable s.curRgb
  /-- 10_state.md R24. -/
  cwReachable : CodeReachable s.curCw
  /-- PIN_DATA is "any PinId other than PIN_CLK's, or none" (10_state.md R35). -/
  pinsDistinct : s.clk.pin ≠ none → s.clk.pin ≠ s.data.pin
  /-- Before INIT the two pins are unbound (70_reset_and_hazards.md R292). -/
  unboundBeforeInit : s.inited = false → s.clk.pin = none ∧ s.data.pin = none
  clkUnknown : s.clk.unknownWhenUnbound
  dataUnknown : s.data.unknownWhenUnbound

/-- The idle state of the bus between host commands: both lines low after INIT, both high after a frame (43_current_and_init.md
R234, 41_byte_frame_transport.md R151 corner (b)), and no micro-operation selected. -/
structure State.BusIdle (s : State) : Prop where
  clkIdle : s.clk.idleWhenBound
  dataIdle : s.data.idleWhenBound
  sameLevel : s.clk.pin ≠ none → s.data.pin ≠ none → s.clk.latch = s.data.latch
  noMicro : s.micro = none

/-- A run of n steps from s that ends in t with no refusal on the way: the premise "no refusal" that a claim about a run takes
(60_exceptions.md R263). -/
def SafeRun (n : Nat) (s t : State) : Prop := Sys2Proof.core.run n s = .next t

/-- The two states hold the same block: they differ at most in the host's side of the interface. -/
def State.SameBlock (s t : State) : Prop :=
  t = { s with results := t.results, inbox := t.inbox, micro := t.micro }

/-- An outcome's next state mapped, a stop left as it is. -/
def mapNext (f : State → State) (o : Host.Outcome State Fault Refusal) : Host.Outcome State Fault Refusal :=
  match o with
  | .next t => .next (f t)
  | .fault r => .fault r
  | .refused r => .refused r

/-- The state as it would be had line l never been bound to a pin: no pin, nothing known of it, none of its events in TRACE. -/
def State.silence (l : Line) (s : State) : State :=
  { s.withLine l ⟨none, none, none⟩ with trace := s.trace.filter (fun e => e.line? ≠ some l) }

/-- A renaming of pin identifiers in an argument list. -/
def Args.renamePins (f : PinId → PinId) (a : Args) : Args :=
  match a with
  | .pins clk data => .pins (clk.map f) (data.map f)
  | .levels vs => .levels vs
  | .strings ss => .strings ss
  | .ints xs => .ints xs
  | .lineLevel l v => .lineLevel l v
  | .lineMode l m => .lineMode l m
  | .bit b => .bit b
  | .byte x => .byte x
  | .buffer bytes count => .buffer bytes count
  | .none => .none

/-- A renaming of pin identifiers in a host move. -/
def HostMove.renamePins (f : PinId → PinId) (m : HostMove) : HostMove :=
  match m with
  | .command w a => .command w (Args.renamePins f a)
  | .remapStore r valid => .remapStore r valid

/-- A renaming of pin identifiers in a state: the two bindings and every command to come. -/
def State.renamePins (f : PinId → PinId) (s : State) : State :=
  { s with
    clk := { s.clk with pin := s.clk.pin.map f }
    data := { s.data with pin := s.data.pin.map f }
    inbox := s.inbox.map (HostMove.renamePins f)
    micro := s.micro.map (fun m => (m.1, Args.renamePins f m.2)) }

/-- A bus monitor's byte from its bits, the first one most significant (20_memory.md R60). -/
def byteOfBits (bits : List Level) : Byte :=
  BitVec.ofNat 8 (bits.foldl (fun n b => 2 * n + b.toNat) 0)

/-- Reads n bits of the waveform of 30_encoding.md R91 off a trace, and what follows them. -/
def readBits (n : Nat) (es : List Event) : Option (List Level × List Event) :=
  match n, es with
  | 0, es => some ([], es)
  | n + 1, .level .data b :: .settle :: .level .clk true :: .settle :: .level .clk false :: .settle :: rest =>
    (readBits n rest).map (fun r => (b :: r.1, r.2))
  | _ + 1, _ => none

/-- Reads one byte of the waveform of 30_encoding.md R93 off a trace, and what follows it. -/
def readByte (es : List Event) : Option (Byte × List Event) :=
  match readBits 8 es with
  | some (bits, .mode .data .input :: .level .clk true :: .settle :: .level .clk false :: .settle ::
      .mode .data .output :: rest) => some (byteOfBits bits, rest)
  | _ => none

/-- Reads n bytes off a trace, and what follows them. -/
def readBytes (n : Nat) (es : List Event) : Option (List Byte × List Event) :=
  match n with
  | 0 => some ([], es)
  | n + 1 =>
    match readByte es with
    | some (x, rest) => (readBytes n rest).map (fun r => (x :: r.1, r.2))
    | none => none

/-- Reads one frame of n bytes (30_encoding.md R94) off a trace, and what follows its stop condition. -/
def readFrame (n : Nat) (es : List Event) : Option (List Byte × List Event) :=
  match es with
  | .level .data false :: .settle :: .level .clk false :: .settle :: body =>
    match readBytes n body with
    | some (xs, .level .clk true :: .settle :: .level .data true :: .settle :: rest) => some (xs, rest)
    | _ => none
  | _ => none

/-- Reads k frames of n bytes each off a trace, and what follows them. -/
def readFrames (k n : Nat) (es : List Event) : Option (List (List Byte) × List Event) :=
  match k with
  | 0 => some ([], es)
  | k + 1 =>
    match readFrame n es with
    | some (f, rest) => (readFrames k n rest).map (fun r => (f :: r.1, r.2))
    | none => none

/-- The level of which two data bytes are the low and the high five bits (42_channel_encoding.md R199). -/
def unpack (lo hi : Byte) : UInt10 := BitVec.ofNat 10 (lo.toNat % 32 + 32 * (hi.toNat % 32))

/-- The five levels a frame carries (30_encoding.md R95), if it is 17 bytes long. -/
def frameLevels (f : List Byte) : Option (Five UInt10) :=
  match f with
  | [_, _, _, _, _, _, _, l0, h0, l1, h1, l2, h2, l3, h3, l4, h4] =>
    some ⟨unpack l0 h0, unpack l1 h1, unpack l2 h2, unpack l3 h3, unpack l4 h4⟩
  | _ => none

/-- The levels driven on the two lines, where known. -/
structure Wires where
  clk : Option Level
  data : Option Level
  deriving DecidableEq, Repr

/-- The driven levels after an event. -/
def Wires.after (w : Wires) (e : Event) : Wires :=
  match e with
  | .level .clk v => { w with clk := some v }
  | .level .data v => { w with data := some v }
  | .mode _ _ => w
  | .settle => w

/-- DATA falls while CLK is high: the start edge of 70_reset_and_hazards.md R294. -/
def Wires.startEdge (w : Wires) (e : Event) : Bool :=
  decide (w.clk = some true ∧ w.data = some true ∧ e = .level .data false)

/-- DATA rises while CLK is high: the stop edge of 70_reset_and_hazards.md R295. -/
def Wires.stopEdge (w : Wires) (e : Event) : Bool :=
  decide (w.clk = some true ∧ w.data = some false ∧ e = .level .data true)

/-- How many events of a list are edges of a kind, from given wires on. -/
def edgeCount (isEdge : Wires → Event → Bool) (w : Wires) (es : List Event) : Nat :=
  match es with
  | [] => 0
  | e :: rest => (if isEdge w e then 1 else 0) + edgeCount isEdge (w.after e) rest

/-- The line discipline of 41_byte_frame_transport.md R155: every event on DATA, a level or a mode, finds CLK low. -/
def dataOnlyWhileClkLow (w : Wires) (es : List Event) : Bool :=
  match es with
  | [] => true
  | e :: rest => (decide (e.line? = some .data → w.clk = some false)) && dataOnlyWhileClkLow (w.after e) rest

/-- A list of events is one frame that keeps the line discipline: between START's last event and STOP's first one, from the wires
START leaves, CLK is low at every event on DATA (41_byte_frame_transport.md R155). -/
def KeepsDiscipline (es : List Event) : Prop :=
  ∃ body, es = startWave ++ body ++ stopWave ∧ dataOnlyWhileClkLow ⟨some false, some false⟩ body = true

/-- How many level events a list holds. -/
def levelCount (es : List Event) : Nat := es.countP (fun e => (e.levelOn .clk).isSome || (e.levelOn .data).isSome)

/-- How many mode events a list holds. -/
def modeCount (es : List Event) : Nat := es.countP (fun e => (e.modeOn .clk).isSome || (e.modeOn .data).isSome)

/-- A row of the table of 70_reset_and_hazards.md R304: from s to t that many level, mode and settle events were appended, and
their sum in all. -/
def State.Emits (s t : State) (levels modes settles : Nat) : Prop :=
  ∃ es, t.trace = s.trace ++ es ∧ levelCount es = levels ∧ modeCount es = modes ∧ settleCount es = settles ∧
    es.length = levels + modes + settles

/-- FLUSH's two rows of that table, for the levels t holds: the sleep path while every level is zero, else the non-zero path. -/
def State.EmitsFlush (s t : State) : Prop :=
  (allZero t.lvl = true → s.Emits t 892 68 892) ∧ (allZero t.lvl = false → s.Emits t 446 34 446)

/-- The driven levels a state leaves on the two lines. -/
def State.wires (s : State) : Wires := ⟨s.clk.latch, s.data.latch⟩

end Sys2Proof.Machine
end

