-- ==== Sys2Proof/Certificates/Slice0/Obligations.lean ====
section
/-! DEFINITION. The statements for the provers. Each docstring says which rule of spec/ it formalises; where a clause rests on a
choice the spec marks as its own (a decision D<n>) or on a choice of the model (a log entry), it says so. -/

open Sys2Proof Sys2Proof.Machine

/-! ### Encoding and the step -/

/-- Every code of the two tables of 30_encoding.md section 1, with arguments of its row's type, decodes to its operation. The
codes are the spec's own choice D2 (log entry 23). -/
def Obligations.TableCodesDecode : Prop :=
  (∀ clk data, decode .host 0x01 (.pins clk data) = .ok (.init clk data)) ∧
  (∀ vs, decode .host 0x02 (.levels vs) = .ok (.writeColor vs)) ∧
  (∀ ss, decode .host 0x03 (.strings ss) = .ok (.rawColor ss)) ∧
  (∀ xs, decode .host 0x04 (.ints xs) = .ok (.setRemap xs)) ∧
  (∀ xs, decode .host 0x05 (.ints xs) = .ok (.setCurrent xs)) ∧
  (∀ l v, decode .micro 0x80 (.lineLevel l v) = .ok (.setLine l v)) ∧
  (∀ l m, decode .micro 0x81 (.lineMode l m) = .ok (.setMode l m)) ∧
  (∀ b, decode .micro 0x82 (.bit b) = .ok (.writeBit b)) ∧
  decode .micro 0x83 .none = .ok .ackCycle ∧
  (∀ x, decode .micro 0x84 (.byte x) = .ok (.writeByte x)) ∧
  decode .micro 0x85 .none = .ok .start ∧
  decode .micro 0x86 .none = .ok .stop ∧
  (∀ bytes count, decode .micro 0x87 (.buffer bytes count) = .ok (.writeBuffer bytes count)) ∧
  decode .micro 0x88 .none = .ok .flush ∧
  decode .micro 0x89 .none = .ok .preInit

/-- Decode and encode agree in both directions: a word with its arguments at a port decodes to an operation exactly when that
operation encodes to them, so each operation has one encoding and no operand is dropped (30_encoding.md section 1; the codes
are the spec's own choice D2). -/
def Obligations.DecodeAgreesWithEncode : Prop :=
  ∀ (p : Port) (w : Byte) (a : Args) (i : Instr), decode p w a = .ok i ↔ encode i = (p, w, a)

/-- A host command whose opcode is none of 0x01..0x05, a micro-operation's code among them and with any arguments, returns
UNKNOWN_COMMAND; the rest of the state is as it was but for the command taken off (60_exceptions.md R264, the spec's own choice
D25). Known opcodes never return it. -/
def Obligations.UnknownOpcodeReturnsUnknownCommand : Prop :=
  ∀ (s : State) (w : Byte) (a : Args) (rest : List HostMove), s.micro = none → s.inbox = .command w a :: rest →
    ((w.toNat < 0x01 ∨ 0x05 < w.toNat) →
      step s = .next { s with inbox := rest, results := s.results ++ [.unknownCommand] }) ∧
    (¬ (w.toNat < 0x01 ∨ 0x05 < w.toNat) →
      ∀ t, step s = .next t → t.results ≠ s.results ++ [.unknownCommand])

/-- A step runs the decoded host command: with no micro-operation selected, the host's next command is taken off and its
operation executed, in one step (20_memory.md R64, R67). -/
def Obligations.StepRunsHostCommand : Prop :=
  ∀ (s : State) (w : Byte) (a : Args) (rest : List HostMove) (i : Instr), s.micro = none →
    s.inbox = .command w a :: rest → decode .host w a = .ok i → step s = exec i { s with inbox := rest }

/-- A step runs the selected micro-operation first, and leaves the host's moves alone. That a micro-operation can be a step of its
own is the model's choice (log entry 7). -/
def Obligations.StepRunsSelectedMicroOperation : Prop :=
  ∀ (s : State) (w : Byte) (a : Args) (i : Instr), s.micro = some (w, a) → decode .micro w a = .ok i →
    step s = exec i { s with micro := none }

/-- With no move to come the block waits: nothing changes and no event is emitted (60_exceptions.md R277, 70_reset_and_hazards.md
R291). That the moves to come are a list in State is the model's choice (log entry 6). -/
def Obligations.StepWaitsWithoutMove : Prop :=
  ∀ s : State, s.micro = none → s.inbox = [] → step s = .next s

/-- Between two commands the host may change REMAP and REMAP_VALID, to any integers, and nothing else (20_memory.md R68, the
spec's own choice D24). -/
def Obligations.HostChangesRemapStoreOnly : Prop :=
  ∀ (s : State) (r : Five Int) (valid : Bool) (rest : List HostMove), s.micro = none →
    s.inbox = .remapStore r valid :: rest → step s = .next { s with inbox := rest, remap := r, remapValid := valid }

/-- A table word placed by `withFetchWord` is what the very next step runs, in every state (log entries 6, 7 and 24: the model's
placing and the model's zero operands). -/
def Obligations.PlacedTableWordRunsNext : Prop :=
  ∀ (s : State) (w : Nat) (i : Instr), decodeTableWord 8 w = some i →
    step (s.withFetchWord 8 w) = exec i { s with micro := none }

/-- After reset every field has the value of 10_state.md R20's reset column (70_reset_and_hazards.md R290); the code 14 is the
spec's own choice D11, the unknown pads D28, the empty bindings D29, and the remap store's contents are its OPEN parameters. -/
def Obligations.ResetValues : Prop :=
  (∀ k, State.reset.lvl.get k = 0) ∧ State.reset.curRgb = 14 ∧ State.reset.curCw = 14 ∧
  (∀ l, State.reset.line l = ⟨none, none, none⟩) ∧ State.reset.inited = false ∧
  State.reset.remap = Config.remapAtReset ∧ State.reset.remapValid = Config.remapValidAtReset ∧ State.reset.trace = []

/-! ### Bit-level transport -/

/-- SET_LINE (40_bit_transport.md R122): on a bound line a level event, the latch and a settle, the level event also when the
level is the one already driven; on an unbound line the settle alone. Nothing else changes. The unbound case is
the spec's own choice D19 (log entry 27). -/
def Obligations.SetLineResult : Prop :=
  ∀ (l : Line) (v : Level) (s : State),
    (s.bound l = true → exec (.setLine l v) s =
      .next { s.withLine l { s.line l with latch := some v } with trace := s.trace ++ [.level l v, .settle] }) ∧
    (s.bound l = false → exec (.setLine l v) s = .next { s with trace := s.trace ++ [.settle] })

/-- SET_MODE (40_bit_transport.md R124): on a bound line a mode event and MODE; no settle (the spec's own choice D16) and LATCH
kept (D17); on an unbound line nothing (D19; log entries 16 and 27). -/
def Obligations.SetModeResult : Prop :=
  ∀ (l : Line) (m : Mode) (s : State),
    (s.bound l = true → exec (.setMode l m) s =
      .next { s.withLine l { s.line l with mode := some m } with trace := s.trace ++ [.mode l m] }) ∧
    (s.bound l = false → exec (.setMode l m) s = .next s)

/-- WRITE_BIT (40_bit_transport.md R125): the six events of its example, each where its line is bound, with both lines unbound
three settles and no other change; whatever was bound, nothing but TRACE, MODE and LATCH changes. What an unbound
line leaves out is the spec's own choice D19 (log entry 27). -/
def Obligations.WriteBitResult : Prop :=
  ∀ (b : Level) (s : State),
    exec (.writeBit b) s =
      .next (s.drive [.level .data b, .settle, .level .clk true, .settle, .level .clk false, .settle]) ∧
    (s.bound .clk = false → s.bound .data = false →
      exec (.writeBit b) s = .next { s with trace := s.trace ++ [.settle, .settle, .settle] })

/-- The pad level of a line (10_state.md R29): its latch while it is an output, a free draw while it is an input, unknown while
its mode is unknown. The retained latch and the draw are the spec's own choices D17 and D18 (log entries 16 and 4). That
a line in input mode has a drawn level also when its latch is unknown, where R29's last sentence says unknown, is the model's own
choice (log entry 4). -/
def Obligations.PadLevelFollowsModeAndLatch : Prop :=
  ∀ (s : State) (l : Line) (look : Nat),
    ((s.line l).mode = some .output → s.padLevel l look = (s.line l).latch) ∧
    ((s.line l).mode = some .input → s.padLevel l look = some (Config.ackDraw look)) ∧
    ((s.line l).mode = none → s.padLevel l look = none)

/-! ### Byte and frame transport -/

/-- ACK_CYCLE (41_byte_frame_transport.md R145): its six events, where their lines are bound; LATCH[DATA] is kept, and a bound DATA
line is an output again. No settle after a mode event and the kept latch are the spec's own choices D16 and D17
(log entry 16), unbound lines its D19 (log entry 27). -/
def Obligations.AckCycleResult : Prop :=
  ∀ s : State, ∃ t,
    exec .ackCycle s = .next t ∧
    t = s.drive [.mode .data .input, .level .clk true, .settle, .level .clk false, .settle, .mode .data .output] ∧
    t.data.latch = s.data.latch ∧
    (s.bound .data = true → t.data.mode = some .output) ∧
    (s.bound .clk = true → t.clk.latch = some false)

/-- WRITE_BYTE (41_byte_frame_transport.md R148): for k = 7 down to 0 the waveform of bit x[k], then the acknowledgment cycle;
afterwards LATCH[DATA] = x[0], MODE[DATA] = OUT and LATCH[CLK] = 0 on bound lines. Nothing but TRACE, MODE and LATCH
changes. The acknowledgment cycle's settles and kept latch are the spec's own choices D16 and D17 (log entry 16), unbound lines its
D19 (log entry 27), and the registers afterwards its derivation (corner case (b)). -/
def Obligations.WriteByteResult : Prop :=
  ∀ (x : Byte) (s : State), ∃ t,
    exec (.writeByte x) s = .next t ∧
    t = s.drive (([7, 6, 5, 4, 3, 2, 1, 0].flatMap fun k => bitWave (x.getLsbD k)) ++ ackWave) ∧
    (s.bound .data = true → t.data.latch = some (x.getLsbD 0) ∧ t.data.mode = some .output) ∧
    (s.bound .clk = true → t.clk.latch = some false)

/-- START (41_byte_frame_transport.md R150): DATA low, then CLK low, each with a settle; no mode is set and the lines' levels
before it are not looked at. What an unbound line leaves out is the spec's own choice D19 (log entry 27). -/
def Obligations.StartResult : Prop :=
  ∀ s : State, ∃ t,
    exec .start s = .next t ∧
    t = s.drive [.level .data false, .settle, .level .clk false, .settle] ∧
    t.clk.mode = s.clk.mode ∧ t.data.mode = s.data.mode ∧
    (∀ l, s.bound l = true → (t.line l).latch = some false)

/-- STOP (41_byte_frame_transport.md R151): CLK high, then DATA high, each with a settle; bound lines are left high. What an unbound line
leaves out is the spec's own choice D19 (log entry 27). -/
def Obligations.StopResult : Prop :=
  ∀ s : State, ∃ t,
    exec .stop s = .next t ∧
    t = s.drive [.level .clk true, .settle, .level .data true, .settle] ∧
    t.clk.mode = s.clk.mode ∧ t.data.mode = s.data.mode ∧
    (∀ l, s.bound l = true → (t.line l).latch = some true)

/-- WRITE_BUFFER (41_byte_frame_transport.md R152): the start condition, the first `count` bytes in order, the stop condition,
for every count up to the buffer's length, 0 included. Nothing but TRACE, MODE and LATCH changes. The settles of the
acknowledgment cells are the spec's own choice D16 (log entry 16), unbound lines its D19 (log entry 27), and count 0 its derivation
(corner case (a)). -/
def Obligations.WriteBufferResult : Prop :=
  ∀ (bytes : List Byte) (count : Nat) (s : State), count ≤ bytes.length →
    exec (.writeBuffer bytes count) s =
      .next (s.drive (startWave ++ (bytes.take count).flatMap byteWave ++ stopWave))

/-- The events of one WRITE_BUFFER (30_encoding.md R94, 41_byte_frame_transport.md R154): 26 settles a byte and 4 for the frame,
whatever is bound, so its least duration is that many times T_SETTLE, which is positive (OPEN, D14); with both lines bound as
many level events, two mode events a byte, and 8 + 54 a byte in all. The spec derives
the counts (R154). They rest on its own choices D16, no settle after a mode event (log entry 16), and D19, an unbound line's settles
kept (log entry 27). -/
def Obligations.FrameEventCounts : Prop :=
  0 < Config.tSettle ∧
  ∀ (bytes : List Byte) (count : Nat) (s : State), count ≤ bytes.length →
    ∃ t es, exec (.writeBuffer bytes count) s = .next t ∧ t.trace = s.trace ++ es ∧
      settleCount es = 26 * count + 4 ∧
      leastDuration es = (26 * count + 4 : Nat) * Config.tSettle ∧
      (s.bound .clk = true → s.bound .data = true →
        es.length = 8 + 54 * count ∧
        es.countP (fun e => (e.levelOn .clk).isSome || (e.levelOn .data).isSome) = 26 * count + 4 ∧
        es.countP (fun e => (e.modeOn .clk).isSome || (e.modeOn .data).isSome) = 2 * count)

/-- How many events each operation appends (70_reset_and_hazards.md R304, the spec's derivation), every row of its table with all
its columns. With both lines bound: the micro-operations, FLUSH's two paths, and the commands that end in a FLUSH when they return
OK. INIT with both roles resolved, whatever was bound before it; SET_REMAP and any step that returns an error, none. No settle
after a mode event and PRE_INIT's four settles are the spec's own choices D16 and D15 (log entries 16 and 15). -/
def Obligations.EventCountsOfEachOperation : Prop :=
  (∀ s : State, s.bound .clk = true → s.bound .data = true →
    (∀ l v t, exec (.setLine l v) s = .next t → s.Emits t 1 0 1) ∧
    (∀ l m t, exec (.setMode l m) s = .next t → s.Emits t 0 1 0) ∧
    (∀ b t, exec (.writeBit b) s = .next t → s.Emits t 3 0 3) ∧
    (∀ t, exec .ackCycle s = .next t → s.Emits t 2 2 2) ∧
    (∀ x t, exec (.writeByte x) s = .next t → s.Emits t 26 2 26) ∧
    (∀ t, exec .start s = .next t → s.Emits t 2 0 2) ∧
    (∀ t, exec .stop s = .next t → s.Emits t 2 0 2) ∧
    (∀ bytes t, exec (.writeBuffer bytes 17) s = .next t → s.Emits t 446 34 446) ∧
    (∀ t, exec .preInit s = .next t → s.Emits t 2 2 4) ∧
    (∀ t, exec .flush s = .next t → s.EmitsFlush t) ∧
    (∀ vs t, exec (.writeColor vs) s = .next t → s.EmitsFlush t) ∧
    (∀ args t, exec (.rawColor args) s = .next t → t.results = s.results ++ [.ok] → s.EmitsFlush t) ∧
    (∀ args t, exec (.setCurrent args) s = .next t → t.results = s.results ++ [.ok] → s.EmitsFlush t)) ∧
  (∀ (s t : State) (p q : PinId), exec (.init (some p) (some q)) s = .next t → s.Emits t 2 2 4) ∧
  (∀ (s t : State) (args : List Int), exec (.setRemap args) s = .next t → s.Emits t 0 0 0) ∧
  (∀ (s t : State) (c : ResultCode), step s = .next t → t.results = s.results ++ [c] → c ≠ .ok → s.Emits t 0 0 0)

/-- The line discipline inside a frame (41_byte_frame_transport.md R155, the spec's derivation), with both lines bound: what
WRITE_BUFFER appends is one frame in which, between START and STOP, every event on DATA finds CLK low; what FLUSH appends is one
such frame, or two on the sleep path. -/
def Obligations.DataMovesOnlyWhileClkLow : Prop :=
  ∀ s : State, s.bound .clk = true → s.bound .data = true →
    (∀ bytes count t, exec (.writeBuffer bytes count) s = .next t →
      ∃ es, t.trace = s.trace ++ es ∧ KeepsDiscipline es) ∧
    (∀ t, exec .flush s = .next t →
      (allZero s.lvl = false → ∃ es, t.trace = s.trace ++ es ∧ KeepsDiscipline es) ∧
      (allZero s.lvl = true →
        ∃ es es', t.trace = s.trace ++ es ++ es' ∧ KeepsDiscipline es ∧ KeepsDiscipline es'))

/-- Start edges (70_reset_and_hazards.md R294, the spec's derivation), counted in the events the block appends from the wires it
finds. INIT with both roles resolved leaves both lines low, and a FLUSH from there appends no start edge in its first frame: none in
all, or the one of the second frame on the sleep path. FLUSH and WRITE_BUFFER leave bound lines high, and from there every frame has
exactly one. The same of WRITE_BUFFER's one frame from both lines low and from both high. That PRE_INIT drives DATA before CLK is the
spec's own choice D15 (log entry 15). -/
def Obligations.FirstFrameAfterInitHasNoStartEdge : Prop :=
  (∀ (p q : PinId) (s t : State), exec (.init (some p) (some q)) s = .next t →
    t.wires = ⟨some false, some false⟩ ∧
    ∃ u es, exec .flush t = .next u ∧ u.trace = t.trace ++ es ∧
      edgeCount Wires.startEdge t.wires es = if allZero t.lvl then 1 else 0) ∧
  (∀ s : State, s.bound .clk = true → s.bound .data = true →
    (∃ t es, exec .flush s = .next t ∧ t.trace = s.trace ++ es ∧ t.wires = ⟨some true, some true⟩ ∧
      (s.wires = ⟨some false, some false⟩ → edgeCount Wires.startEdge s.wires es = if allZero s.lvl then 1 else 0) ∧
      (s.wires = ⟨some true, some true⟩ → edgeCount Wires.startEdge s.wires es = if allZero s.lvl then 2 else 1)) ∧
    (∀ bytes count, count ≤ bytes.length →
      ∃ t es, exec (.writeBuffer bytes count) s = .next t ∧ t.trace = s.trace ++ es ∧ t.wires = ⟨some true, some true⟩ ∧
        (s.wires = ⟨some false, some false⟩ → edgeCount Wires.startEdge s.wires es = 0) ∧
        (s.wires = ⟨some true, some true⟩ → edgeCount Wires.startEdge s.wires es = 1)))

/-- Stop edges (70_reset_and_hazards.md R295, the spec's derivation), with both lines bound and from any wires: the one frame FLUSH
appends has a stop edge exactly when LVL[4][5] is 0, and each of the two frames of the sleep path has one. -/
def Obligations.StopEdgeFollowsLastDataBit : Prop :=
  ∀ (s : State) (w : Wires), s.bound .clk = true → s.bound .data = true →
    ∃ t es, exec .flush s = .next t ∧ t.trace = s.trace ++ es ∧
      (allZero s.lvl = false → edgeCount Wires.stopEdge w es = if s.lvl.c4.getLsbD 5 then 0 else 1) ∧
      (allZero s.lvl = true → edgeCount Wires.stopEdge w es = 2)

/-- What WRITE_BUFFER puts on the wire determines its bytes, with both lines bound: from the events it appended, whatever follows
them, a monitor of the two lines reads exactly the first `count` bytes, most significant bit first and in index order, and then
what follows (20_memory.md R60, R61, 30_encoding.md R91 to R94). -/
def Obligations.WaveformDeterminesBytes : Prop :=
  ∀ (bytes : List Byte) (count : Nat) (rest : List Event) (s : State), count ≤ bytes.length →
    s.bound .clk = true → s.bound .data = true →
    ∃ t es, exec (.writeBuffer bytes count) s = .next t ∧ t.trace = s.trace ++ es ∧
      readFrame count (es ++ rest) = some (bytes.take count, rest)

/-! ### Frame contents -/

/-- SELECT_MODE (42_channel_encoding.md R193), for levels that are not all zero: MODE2 exactly when channels 0, 1 and 2 are zero
and 3 or 4 is not, MODE3 exactly when channels 3 and 4 are zero and one of 0, 1 and 2 is not, MODE5 otherwise. -/
def Obligations.ModeSelection : Prop :=
  ∀ L : Five UInt10, allZero L = false →
    (selectMode L = .mode2 ↔ (L.c0 = 0 ∧ L.c1 = 0 ∧ L.c2 = 0) ∧ (L.c3 ≠ 0 ∨ L.c4 ≠ 0)) ∧
    (selectMode L = .mode3 ↔ (L.c3 = 0 ∧ L.c4 = 0) ∧ (L.c0 ≠ 0 ∨ L.c1 ≠ 0 ∨ L.c2 ≠ 0)) ∧
    (selectMode L = .mode5 ↔ (L.c0 ≠ 0 ∨ L.c1 ≠ 0 ∨ L.c2 ≠ 0) ∧ (L.c3 ≠ 0 ∨ L.c4 ≠ 0))

/-- BUILD_FRAME's address, enable and current bytes (42_channel_encoding.md R196 with R200): in each mode the bytes f[0..6], the
frame being 17 bytes long. The address and enable bytes (R194) are OPEN parameters (D12, log entry 1);
the length is R95's. -/
def Obligations.FrameHeadOfEachMode : Prop :=
  ∀ (L : Five UInt10) (rgb cw : Byte), allZero L = false →
    (buildFrame L rgb cw).length = 17 ∧
    (selectMode L = .mode2 →
      (buildFrame L rgb cw).take 7 = [Config.addrOut2ch, Config.en2ch, 0, 0, 0, cw, cw]) ∧
    (selectMode L = .mode3 →
      (buildFrame L rgb cw).take 7 = [Config.addrOut3ch, Config.en3ch, rgb, rgb, rgb, 0, 0]) ∧
    (selectMode L = .mode5 →
      (buildFrame L rgb cw).take 7 = [Config.addrOut, Config.en5ch, rgb, rgb, rgb, cw, cw])

/-- PACK (42_channel_encoding.md R198): in every mode, channel j's low five bits are the byte f[7+2j] and its bits 9..5 the byte
f[8+2j], each zero-extended to eight bits. -/
def Obligations.DataBytesOfEachChannel : Prop :=
  ∀ (L : Five UInt10) (rgb cw : Byte) (j : Fin 5), ∃ lo hi : Byte,
    (buildFrame L rgb cw)[7 + 2 * j.val]? = some lo ∧ (buildFrame L rgb cw)[8 + 2 * j.val]? = some hi ∧
    lo = ((L.get j).extractLsb' 0 5).setWidth 8 ∧ hi = ((L.get j).extractLsb' 5 5).setWidth 8 ∧
    lo.toNat = (L.get j).toNat % 32 ∧ hi.toNat = (L.get j).toNat / 32

/-- PACK round-trips for every level, and both bytes are below 32 (42_channel_encoding.md R199, which the spec derives). -/
def Obligations.PackRoundTrips : Prop :=
  ∀ x : UInt10, (packLo x).toNat < 32 ∧ (packHi x).toNat < 32 ∧
    (packLo x).toNat % 32 + 32 * ((packHi x).toNat % 32) = x.toNat

/-- FLUSH (42_channel_encoding.md R190, R192): with every level zero exactly the two all-zero frames, the output address first and
the sleep address second; otherwise exactly one frame, BUILD_FRAME's. No register is written but MODE and LATCH. That the first
address is P_ADDR_OUT is the spec's own choice D13 (log entry 21), and what an unbound line leaves out its D19
(log entry 27). -/
def Obligations.FlushResult : Prop :=
  ∀ s : State,
    ((∀ k, s.lvl.get k = 0) → exec .flush s =
      .next (s.drive (frameWave (Config.addrOut :: List.replicate 16 0) ++
        frameWave (Config.addrSleep :: List.replicate 16 0)))) ∧
    ((∃ k, s.lvl.get k ≠ 0) → exec .flush s = .next (s.drive (frameWave (buildFrame s.lvl s.curRgb s.curCw))))

/-- What FLUSH puts on the wire determines the levels it was given: with both lines bound and a level that is not zero, a monitor
reads one 17-byte frame from the events FLUSH appended, and the frame's data bytes give back LVL (20_memory.md R60, R61,
30_encoding.md R95, 42_channel_encoding.md R199). -/
def Obligations.FlushTraceGivesBackLevels : Prop :=
  ∀ s : State, s.bound .clk = true → s.bound .data = true → allZero s.lvl = false →
    ∃ t es f, exec .flush s = .next t ∧ t.trace = s.trace ++ es ∧ readFrame 17 es = some (f, []) ∧
      frameLevels f = some s.lvl

/-- What FLUSH appends, with both lines bound, is two frames on the sleep path and one otherwise, and nothing else; every one of
them is 17 bytes long, its data bytes are below 32, and its address byte is one of the four chip addresses (30_encoding.md R95,
R96, R97, 10_state.md R36; derived there). That the first frame of the sleep path goes to P_ADDR_OUT is the spec's own choice D13
(log entry 21). -/
def Obligations.EveryFrameIsWellShaped : Prop :=
  ∀ s : State, s.bound .clk = true → s.bound .data = true →
    ∃ t es fs, exec .flush s = .next t ∧ t.trace = s.trace ++ es ∧
      readFrames (if allZero s.lvl then 2 else 1) 17 es = some (fs, []) ∧
      ∀ f ∈ fs, f.length = 17 ∧ (∀ x ∈ f.drop 7, x.toNat < 32) ∧
        ∃ a, f.head? = some a ∧
          (a = Config.addrOut ∨ a = Config.addrOut3ch ∨ a = Config.addrOut2ch ∨ a = Config.addrSleep)

/-! ### Operand conversions -/

/-- P_SCALE on its whole domain is the floor of the exact rational product (42_channel_encoding.md R171); truncation is the spec's
own choice D4 (log entry 9). -/
def Obligations.ScaleIsFloorOfExactProduct : Prop :=
  ∀ v : Rat, 0 ≤ v → v ≤ 255 → ((pScale v).toNat : Int) = ⌊v * 1023 / 255⌋

/-- The four laws every P_SCALE must keep (42_channel_encoding.md R171; the laws come with the spec's own choice D4). -/
def Obligations.ScaleKeepsItsLaws : Prop :=
  pScale 0 = 0 ∧ pScale 255 = 1023 ∧
  (∀ u v : Rat, 0 ≤ u → u ≤ v → v ≤ 255 → (pScale u).toNat ≤ (pScale v).toNat) ∧
  (∀ v : Rat, 0 ≤ v → v ≤ 255 → |((pScale v).toNat : Rat) - v * 1023 / 255| < 1)

/-- CUR_XFORM (43_current_and_init.md R220): on 0..221 the code is the input, plus 34 when the input exceeds 63; 64..97 are never
produced. -/
def Obligations.CurrentTransform : Prop :=
  ∀ x : Int, 0 ≤ x → x ≤ 221 →
    (x > 63 → ((curXform x).toNat : Int) = x + 34) ∧ (¬ x > 63 → ((curXform x).toNat : Int) = x) ∧
    CodeReachable (curXform x)

/-- HEX5 (42_channel_encoding.md R181, the spec's own choice D8): it succeeds exactly on ten characters that are all hex digits,
and byte k is 16 times the digit at 2k plus the digit at 2k+1. -/
def Obligations.HexStringGivesFiveBytes : Prop :=
  ∀ (str : Str) (b : Five Nat), hex5 str = some b ↔
    str.length = 10 ∧ ∀ k : Fin 5, ∃ hi lo h l, str[2 * k.val]? = some hi ∧ str[2 * k.val + 1]? = some lo ∧
      hexVal hi = some h ∧ hexVal lo = some l ∧ b.get k = 16 * h + l

/-! ### Host commands -/

/-- WRITE_COLOR completes (42_channel_encoding.md R175) for any five rationals from 0 to 255 and any remap table of channel
numbers, in any state: LVL[i] becomes the scaled v[REMAP[i]], FLUSH runs with the new levels, the result is OK, and nothing else
changes. Exact floor scaling, the gather and running before INIT are the spec's own choices D4, D6 and D20 (log entries 9, 11
and 17). -/
def Obligations.WriteColorResult : Prop :=
  ∀ (s : State) (v : Five Rat) (r : Five (Fin 5)),
    (∀ k, 0 ≤ v.get k ∧ v.get k ≤ 255) → (∀ k, s.remap.get k = ((r.get k).val : Int)) →
    ∃ L : Five UInt10, (∀ k, ((L.get k).toNat : Int) = ⌊v.get (r.get k) * 1023 / 255⌋) ∧
      exec (.writeColor (v.toList.map LevelInput.rat)) s =
        .next { ({ s with lvl := L } : State).drive (flushWave { s with lvl := L }) with
          results := s.results ++ [.ok] }

/-- RAW_COLOR completes (42_channel_encoding.md R180) for any string HEX5 reads, further arguments ignored, once INITED: the same
as WRITE_COLOR of its five bytes, LVL[i] being byte[REMAP[i]] * 1023 div 255. The string format and the path through the remap are
the spec's own choice D8 (log entry 12). -/
def Obligations.RawColorResult : Prop :=
  ∀ (s : State) (str : Str) (others : List Str) (b : Five Nat) (r : Five (Fin 5)), s.inited = true →
    hex5 str = some b → (∀ k, s.remap.get k = ((r.get k).val : Int)) →
    exec (.rawColor (str :: others)) s = exec (.writeColor (b.toList.map fun (n : Nat) => LevelInput.rat (n : Rat))) s ∧
    ∃ L : Five UInt10, (∀ k, (L.get k).toNat = b.get (r.get k) * 1023 / 255) ∧
      exec (.rawColor (str :: others)) s =
        .next { ({ s with lvl := L } : State).drive (flushWave { s with lvl := L }) with
          results := s.results ++ [.ok] }

/-- SET_REMAP completes (42_channel_encoding.md R182) for any five channel numbers, repeated ones included, further arguments
ignored, once INITED: REMAP and REMAP_VALID are written, the result is OK, no event is emitted and LVL is kept (the spec's own
choices D7, D9 and D23). -/
def Obligations.SetRemapResult : Prop :=
  ∀ (s : State) (r : Five (Fin 5)) (others : List Int), s.inited = true →
    exec (.setRemap (((r.map fun i => (i.val : Int)).toList) ++ others)) s =
      .next { s with remap := r.map fun i => (i.val : Int), remapValid := true, results := s.results ++ [.ok] }

/-- SET_CURRENT completes (43_current_and_init.md R224) for any two inputs from 0 to 221, further arguments ignored, once INITED,
also when the codes do not change (D35): both codes are written, FLUSH runs with the levels as they are and the new codes, the
result is OK, and nothing else changes. The input range is the spec's own choice D10. -/
def Obligations.SetCurrentResult : Prop :=
  ∀ (s : State) (x y : Int) (others : List Int), s.inited = true → 0 ≤ x → x ≤ 221 → 0 ≤ y → y ≤ 221 →
    ∃ rgb cw : Byte, (rgb.toNat : Int) = (if x > 63 then x + 34 else x) ∧
      (cw.toNat : Int) = (if y > 63 then y + 34 else y) ∧
      exec (.setCurrent (x :: y :: others)) s =
        .next { ({ s with curRgb := rgb, curCw := cw } : State).drive
            (flushWave { s with curRgb := rgb, curCw := cw }) with
          results := s.results ++ [.ok] }

/-- PRE_INIT (43_current_and_init.md R230): its eight events in the order of its example, where their lines are bound; a bound line
ends as an output driven low. The order and the last settle are the spec's own choice D15 (log entry 15), unbound lines its D19
(log entry 27). -/
def Obligations.PreInitResult : Prop :=
  ∀ s : State, ∃ t,
    exec .preInit s = .next t ∧
    t = s.drive [.mode .data .output, .settle, .mode .clk .output, .settle, .level .data false, .settle,
      .level .clk false, .settle] ∧
    (∀ l, s.bound l = true → (t.line l).mode = some .output ∧ (t.line l).latch = some false) ∧
    (∀ l, s.bound l = false → t.line l = s.line l)

/-- INIT completes (43_current_and_init.md R232, R233) in any state, for any two answers of the resolver that do not name one pin
for both roles, none included: a line bound to another pin loses its MODE and LATCH, PRE_INIT runs with the new bindings, INITED is
true, the identity remap is applied only when no remap was configured, the result is OK, and nothing else changes. The spec's own
choices D15, D19, D21, D22 and D28 (log entries 15, 18 and 27). -/
def Obligations.InitResult : Prop :=
  ∀ (s : State) (clk data : Option PinId), (clk = none ∨ clk ≠ data) →
    exec (.init clk data) s =
      .next { ({ s with
            clk := if s.clk.pin = clk then s.clk else ⟨clk, none, none⟩
            data := if s.data.pin = data then s.data else ⟨data, none, none⟩ } : State).drive
          [.mode .data .output, .settle, .mode .clk .output, .settle, .level .data false, .settle,
            .level .clk false, .settle] with
        inited := true
        remap := if s.remapValid then s.remap else ⟨0, 1, 2, 3, 4⟩
        remapValid := true
        results := s.results ++ [.ok] }

/-- The state after an INIT with both roles resolved to two pins (43_current_and_init.md R234, which the spec derives). -/
def Obligations.InitLeavesKnownIdleBus : Prop :=
  ∀ (s : State) (p q : PinId), p ≠ q → ∃ t,
    exec (.init (some p) (some q)) s = .next t ∧
    t.clk = ⟨some p, some .output, some false⟩ ∧ t.data = ⟨some q, some .output, some false⟩ ∧
    t.inited = true ∧ t.remapValid = true ∧
    t.lvl = s.lvl ∧ t.curRgb = s.curRgb ∧ t.curCw = s.curCw

/-- A registered command before the first INIT returns NOT_REGISTERED with any arguments and changes nothing else (60_exceptions.md
R261, the spec's own choice D20). -/
def Obligations.RegisteredCommandsNeedInit : Prop :=
  ∀ s : State, s.inited = false →
    (∀ args, exec (.rawColor args) s = .next { s with results := s.results ++ [.notRegistered] }) ∧
    (∀ args, exec (.setRemap args) s = .next { s with results := s.results ++ [.notRegistered] }) ∧
    (∀ args, exec (.setCurrent args) s = .next { s with results := s.results ++ [.notRegistered] })

/-- A registered command with fewer arguments than it requires (1, 5 and 2), once INITED, returns NOT_ENOUGH_ARGS whatever the
arguments are and changes nothing else (60_exceptions.md R262, 43_current_and_init.md R225, the spec's own choice D9). -/
def Obligations.TooFewArgumentsChangeNothing : Prop :=
  ∀ s : State, s.inited = true →
    (∀ args, args.length < 1 →
      exec (.rawColor args) s = .next { s with results := s.results ++ [.notEnoughArgs] }) ∧
    (∀ args, args.length < 5 →
      exec (.setRemap args) s = .next { s with results := s.results ++ [.notEnoughArgs] }) ∧
    (∀ args, args.length < 2 →
      exec (.setCurrent args) s = .next { s with results := s.results ++ [.notEnoughArgs] })

/-- When a colour write is refused and with which reason, in the order of the checks (60_exceptions.md R263, R265 step 4; the spec's
own choices D5, D7 and D8). -/
def Obligations.ColorRefusals : Prop :=
  ∀ s : State,
    (∀ vs, vs.length ≠ 5 → exec (.writeColor vs) s = .refused .badArity) ∧
    (∀ vs, vs.length = 5 → (∃ x ∈ vs, ¬ ∃ q : Rat, x = .rat q ∧ 0 ≤ q ∧ q ≤ 255) →
      exec (.writeColor vs) s = .refused .levelInputOutOfRange) ∧
    (∀ vs, vs.length = 5 → (∀ x ∈ vs, ∃ q : Rat, x = .rat q ∧ 0 ≤ q ∧ q ≤ 255) →
      (∃ k, s.remap.get k < 0 ∨ 4 < s.remap.get k) →
      exec (.writeColor vs) s = .refused .remapEntryOutOfRange) ∧
    (∀ str others, s.inited = true → hex5 str = none →
      exec (.rawColor (str :: others)) s = .refused .rawHexMalformed) ∧
    (∀ str others, s.inited = true → hex5 str ≠ none → (∃ k, s.remap.get k < 0 ∨ 4 < s.remap.get k) →
      exec (.rawColor (str :: others)) s = .refused .remapEntryOutOfRange)

/-- When the other operations are refused and with which reason (60_exceptions.md R263, R265; the spec's own choices D7, D10 and
D22; the last clause is the model's own, log entry 22). -/
def Obligations.ConfigurationRefusals : Prop :=
  ∀ s : State,
    (∀ a : Five Int, ∀ others, s.inited = true → (∃ k, a.get k < 0 ∨ 4 < a.get k) →
      exec (.setRemap (a.toList ++ others)) s = .refused .remapArgOutOfRange) ∧
    (∀ x y others, s.inited = true → (x < 0 ∨ 221 < x ∨ y < 0 ∨ 221 < y) →
      exec (.setCurrent (x :: y :: others)) s = .refused .currentArgOutOfRange) ∧
    (∀ p, exec (.init (some p) (some p)) s = .refused .pinConflict) ∧
    (∀ bytes count, bytes.length < count → exec (.writeBuffer bytes count) s = .refused .countBeyondBuffer)

/-! ### Whole-machine rules -/

/-- TRACE (10_state.md R31): no step removes or reorders an event, it only appends, and it is empty after reset. -/
def Obligations.TraceOnlyGrows : Prop :=
  (∀ s t : State, step s = .next t → s.trace <+: t.trace) ∧ State.reset.trace = []

/-- An error leaves the block as it was (60_exceptions.md R266, which the spec derives): a step whose result code is not OK changes
no field of the block and appends no event. -/
def Obligations.ErrorsLeaveNoTrace : Prop :=
  ∀ (s t : State) (c : ResultCode), step s = .next t → t.results = s.results ++ [c] → c ≠ .ok → s.SameBlock t

/-- Each host command ends with exactly one result code and the command index advances by one; no other step returns a result
(10_state.md R33, 60_exceptions.md R260; the spec's own choices D25 and D26). -/
def Obligations.OneResultPerCommand : Prop :=
  ∀ s t : State, step s = .next t →
    (∀ w a rest, s.micro = none → s.inbox = .command w a :: rest →
      t.inbox = rest ∧ (∃ c, t.results = s.results ++ [c]) ∧ t.commandIndex = s.commandIndex + 1) ∧
    ((s.micro ≠ none ∨ ∀ w a rest, s.inbox ≠ .command w a :: rest) → t.results = s.results)

/-- Which operation can change which register (10_state.md R21, R23, R25, R26, R30 and the access matrix R38): LVL only the two
colour writes, the current codes only SET_CURRENT, the bindings only INIT, INITED only INIT and only to true, the remap fields only
INIT and SET_REMAP, TRACE every operation but SET_REMAP; a result only a host command; the host's moves and the selection none. -/
def Obligations.EachRegisterHasItsWriters : Prop :=
  ∀ (i : Instr) (s t : State), exec i s = .next t →
    (t.lvl ≠ s.lvl → (∃ vs, i = .writeColor vs) ∨ ∃ args, i = .rawColor args) ∧
    ((t.curRgb ≠ s.curRgb ∨ t.curCw ≠ s.curCw) → ∃ args, i = .setCurrent args) ∧
    ((t.clk.pin ≠ s.clk.pin ∨ t.data.pin ≠ s.data.pin) → ∃ clk data, i = .init clk data) ∧
    (t.inited ≠ s.inited → t.inited = true ∧ ∃ clk data, i = .init clk data) ∧
    ((t.remap ≠ s.remap ∨ t.remapValid ≠ s.remapValid) →
      (∃ clk data, i = .init clk data) ∨ ∃ args, i = .setRemap args) ∧
    ((t.trace ≠ s.trace ∨ t.clk ≠ s.clk ∨ t.data ≠ s.data) → ∀ args, i ≠ .setRemap args) ∧
    (t.results ≠ s.results → i.port = .host) ∧ t.inbox = s.inbox ∧ t.micro = s.micro

/-- MODE and LATCH are the last mode and level of the events appended (10_state.md R28): for every operation that answers a next
state, a line that keeps its pin has exactly the registers those events leave. -/
def Obligations.LineRegistersFollowTrace : Prop :=
  ∀ (i : Instr) (s t : State), exec i s = .next t →
    ∃ es, t.trace = s.trace ++ es ∧
      ∀ l, (t.line l).pin = (s.line l).pin → t.line l = (s.line l).after l es

/-- What every step keeps, a micro-operation's and a host move's included: the current codes stay reachable ones (10_state.md R24),
the two pins stay distinct (R35), before INIT no pin is bound (70_reset_and_hazards.md R292), and nothing is known of an unbound
line (R28). -/
def Obligations.EveryStepKeepsWellBound : Prop :=
  ∀ s t : State, s.WellBound → step s = .next t → t.WellBound

/-- The bus is idle between host commands: every step from a well bound idle state, whatever the host does next, leaves bound
lines as outputs, both at one known level, low after INIT and high after a frame (43_current_and_init.md R234,
41_byte_frame_transport.md R151 corner (b)). -/
def Obligations.HostStepsKeepBusIdle : Prop :=
  ∀ s t : State, s.WellBound → s.BusIdle → step s = .next t → t.BusIdle

/-- The reset state (70_reset_and_hazards.md R290) is well bound and idle. The reachable codes rest on the spec's own choice D11 (log
entry 10), the unbound lines with unknown pads on D28 and D29 (log entry 18), and the empty selection is the model's own (log entry
7). -/
def Obligations.ResetIsWellBoundAndIdle : Prop := State.reset.WellBound ∧ State.reset.BusIdle

/-- Every run from reset, whatever the host's moves, that meets no refusal ends well bound and idle (10_state.md R24, R28,
43_current_and_init.md R234, 41_byte_frame_transport.md R151 corner (b); the invariants are the spec's derivations; the reset
state they start from rests on its own choices D11, D28 and D29, log entries 10 and 18, and the moves as a list in State are the
model's, log entries 6 and 7). -/
def Obligations.EveryRunFromResetEndsIdle : Prop :=
  ∀ (moves : List HostMove) (n : Nat) (t : State), SafeRun n { State.reset with inbox := moves } t →
    t.WellBound ∧ t.BusIdle

/-- A host cannot issue a micro-operation (00_scope.md R3): whatever a step does, it leaves none selected, so only what stands on
the internal port at the start of a run can run as a step of its own (log entry 7). -/
def Obligations.NoStepSelectsMicroOperation : Prop :=
  ∀ s t : State, step s = .next t → t.micro = none

/-- An unbound pin is silent (70_reset_and_hazards.md R300): a block in which one line was never bound does at every command
exactly what the block with that line bound does, and its TRACE lacks that line's events alone; INIT with an unresolved role is
INIT with the role resolved, less that line; and whatever the command, the result is the same. The silent line with its settles kept is
the spec's own choice D19 (R121, log entry 27). -/
def Obligations.UnboundLineIsSilent : Prop :=
  (∀ (i : Instr) (s : State) (l : Line), (∀ clk data, i ≠ .init clk data) →
    exec i (s.silence l) = mapNext (State.silence l) (exec i s)) ∧
  (∀ (s : State) (p : PinId) (data : Option PinId), data ≠ some p →
    exec (.init none data) (s.silence .clk) = mapNext (State.silence .clk) (exec (.init (some p) data) s)) ∧
  (∀ (s : State) (p : PinId) (clk : Option PinId), clk ≠ some p →
    exec (.init clk none) (s.silence .data) = mapNext (State.silence .data) (exec (.init clk (some p)) s)) ∧
  (∀ (i : Instr) (s t : State) (l : Line), exec i s = .next t →
    ∃ u, exec i (s.silence l) = .next u ∧ u.results = t.results)

/-- The block looks at pin identifiers only to tell them apart (00_scope.md R9, 60_exceptions.md R273): an injective renaming of
pins commutes with every step, so no pin number is special. That pins are named by naturals is the model's choice (log entry 5);
this statement says that nothing rests on it. -/
def Obligations.PinNamesDoNotMatter : Prop :=
  ∀ (f : PinId → PinId) (s : State), Function.Injective f →
    step (s.renamePins f) = mapNext (State.renamePins f) (step s)
end

