-- ==== Sys2Proof/Laws/State.lean ====
section
/-! SUPPORT. What each named update of State leaves in each field: one lemma a field and update, so that no later proof unfolds
a record update. -/

namespace Sys2Proof.Machine

variable (s : State)

@[simp] theorem State.emit_lvl (e : Event) : (s.emit e).lvl = s.lvl := rfl
@[simp] theorem State.emit_curRgb (e : Event) : (s.emit e).curRgb = s.curRgb := rfl
@[simp] theorem State.emit_curCw (e : Event) : (s.emit e).curCw = s.curCw := rfl
@[simp] theorem State.emit_clk (e : Event) : (s.emit e).clk = s.clk := rfl
@[simp] theorem State.emit_data (e : Event) : (s.emit e).data = s.data := rfl
@[simp] theorem State.emit_inited (e : Event) : (s.emit e).inited = s.inited := rfl
@[simp] theorem State.emit_remap (e : Event) : (s.emit e).remap = s.remap := rfl
@[simp] theorem State.emit_remapValid (e : Event) : (s.emit e).remapValid = s.remapValid := rfl
@[simp] theorem State.emit_trace (e : Event) : (s.emit e).trace = s.trace ++ [e] := rfl
@[simp] theorem State.emit_results (e : Event) : (s.emit e).results = s.results := rfl
@[simp] theorem State.emit_inbox (e : Event) : (s.emit e).inbox = s.inbox := rfl
@[simp] theorem State.emit_micro (e : Event) : (s.emit e).micro = s.micro := rfl

@[simp] theorem State.ret_lvl (r : ResultCode) : (s.ret r).lvl = s.lvl := rfl
@[simp] theorem State.ret_curRgb (r : ResultCode) : (s.ret r).curRgb = s.curRgb := rfl
@[simp] theorem State.ret_curCw (r : ResultCode) : (s.ret r).curCw = s.curCw := rfl
@[simp] theorem State.ret_clk (r : ResultCode) : (s.ret r).clk = s.clk := rfl
@[simp] theorem State.ret_data (r : ResultCode) : (s.ret r).data = s.data := rfl
@[simp] theorem State.ret_inited (r : ResultCode) : (s.ret r).inited = s.inited := rfl
@[simp] theorem State.ret_remap (r : ResultCode) : (s.ret r).remap = s.remap := rfl
@[simp] theorem State.ret_remapValid (r : ResultCode) : (s.ret r).remapValid = s.remapValid := rfl
@[simp] theorem State.ret_trace (r : ResultCode) : (s.ret r).trace = s.trace := rfl
@[simp] theorem State.ret_results (r : ResultCode) : (s.ret r).results = s.results ++ [r] := rfl
@[simp] theorem State.ret_inbox (r : ResultCode) : (s.ret r).inbox = s.inbox := rfl
@[simp] theorem State.ret_micro (r : ResultCode) : (s.ret r).micro = s.micro := rfl

@[simp] theorem State.setLvl_lvl (x : Five UInt10) : (s.setLvl x).lvl = x := rfl
@[simp] theorem State.setLvl_curRgb (x : Five UInt10) : (s.setLvl x).curRgb = s.curRgb := rfl
@[simp] theorem State.setLvl_curCw (x : Five UInt10) : (s.setLvl x).curCw = s.curCw := rfl
@[simp] theorem State.setLvl_clk (x : Five UInt10) : (s.setLvl x).clk = s.clk := rfl
@[simp] theorem State.setLvl_data (x : Five UInt10) : (s.setLvl x).data = s.data := rfl
@[simp] theorem State.setLvl_inited (x : Five UInt10) : (s.setLvl x).inited = s.inited := rfl
@[simp] theorem State.setLvl_remap (x : Five UInt10) : (s.setLvl x).remap = s.remap := rfl
@[simp] theorem State.setLvl_remapValid (x : Five UInt10) : (s.setLvl x).remapValid = s.remapValid := rfl
@[simp] theorem State.setLvl_trace (x : Five UInt10) : (s.setLvl x).trace = s.trace := rfl
@[simp] theorem State.setLvl_results (x : Five UInt10) : (s.setLvl x).results = s.results := rfl
@[simp] theorem State.setLvl_inbox (x : Five UInt10) : (s.setLvl x).inbox = s.inbox := rfl
@[simp] theorem State.setLvl_micro (x : Five UInt10) : (s.setLvl x).micro = s.micro := rfl

@[simp] theorem State.setCurrents_lvl (rgb cw : Byte) : (s.setCurrents rgb cw).lvl = s.lvl := rfl
@[simp] theorem State.setCurrents_curRgb (rgb cw : Byte) : (s.setCurrents rgb cw).curRgb = rgb := rfl
@[simp] theorem State.setCurrents_curCw (rgb cw : Byte) : (s.setCurrents rgb cw).curCw = cw := rfl
@[simp] theorem State.setCurrents_clk (rgb cw : Byte) : (s.setCurrents rgb cw).clk = s.clk := rfl
@[simp] theorem State.setCurrents_data (rgb cw : Byte) : (s.setCurrents rgb cw).data = s.data := rfl
@[simp] theorem State.setCurrents_inited (rgb cw : Byte) : (s.setCurrents rgb cw).inited = s.inited := rfl
@[simp] theorem State.setCurrents_remap (rgb cw : Byte) : (s.setCurrents rgb cw).remap = s.remap := rfl
@[simp] theorem State.setCurrents_remapValid (rgb cw : Byte) : (s.setCurrents rgb cw).remapValid = s.remapValid := rfl
@[simp] theorem State.setCurrents_trace (rgb cw : Byte) : (s.setCurrents rgb cw).trace = s.trace := rfl
@[simp] theorem State.setCurrents_results (rgb cw : Byte) : (s.setCurrents rgb cw).results = s.results := rfl
@[simp] theorem State.setCurrents_inbox (rgb cw : Byte) : (s.setCurrents rgb cw).inbox = s.inbox := rfl
@[simp] theorem State.setCurrents_micro (rgb cw : Byte) : (s.setCurrents rgb cw).micro = s.micro := rfl

@[simp] theorem State.register_lvl : (s.register).lvl = s.lvl := rfl
@[simp] theorem State.register_curRgb : (s.register).curRgb = s.curRgb := rfl
@[simp] theorem State.register_curCw : (s.register).curCw = s.curCw := rfl
@[simp] theorem State.register_clk : (s.register).clk = s.clk := rfl
@[simp] theorem State.register_data : (s.register).data = s.data := rfl
@[simp] theorem State.register_inited : (s.register).inited = true := rfl
@[simp] theorem State.register_remap : (s.register).remap = s.remap := rfl
@[simp] theorem State.register_remapValid : (s.register).remapValid = s.remapValid := rfl
@[simp] theorem State.register_trace : (s.register).trace = s.trace := rfl
@[simp] theorem State.register_results : (s.register).results = s.results := rfl
@[simp] theorem State.register_inbox : (s.register).inbox = s.inbox := rfl
@[simp] theorem State.register_micro : (s.register).micro = s.micro := rfl

@[simp] theorem State.configureRemap_lvl (r : Five Int) : (s.configureRemap r).lvl = s.lvl := rfl
@[simp] theorem State.configureRemap_curRgb (r : Five Int) : (s.configureRemap r).curRgb = s.curRgb := rfl
@[simp] theorem State.configureRemap_curCw (r : Five Int) : (s.configureRemap r).curCw = s.curCw := rfl
@[simp] theorem State.configureRemap_clk (r : Five Int) : (s.configureRemap r).clk = s.clk := rfl
@[simp] theorem State.configureRemap_data (r : Five Int) : (s.configureRemap r).data = s.data := rfl
@[simp] theorem State.configureRemap_inited (r : Five Int) : (s.configureRemap r).inited = s.inited := rfl
@[simp] theorem State.configureRemap_remap (r : Five Int) : (s.configureRemap r).remap = r := rfl
@[simp] theorem State.configureRemap_remapValid (r : Five Int) : (s.configureRemap r).remapValid = true := rfl
@[simp] theorem State.configureRemap_trace (r : Five Int) : (s.configureRemap r).trace = s.trace := rfl
@[simp] theorem State.configureRemap_results (r : Five Int) : (s.configureRemap r).results = s.results := rfl
@[simp] theorem State.configureRemap_inbox (r : Five Int) : (s.configureRemap r).inbox = s.inbox := rfl
@[simp] theorem State.configureRemap_micro (r : Five Int) : (s.configureRemap r).micro = s.micro := rfl

@[simp] theorem State.drive_lvl (es : List Event) : (s.drive es).lvl = s.lvl := rfl
@[simp] theorem State.drive_curRgb (es : List Event) : (s.drive es).curRgb = s.curRgb := rfl
@[simp] theorem State.drive_curCw (es : List Event) : (s.drive es).curCw = s.curCw := rfl
@[simp] theorem State.drive_clk (es : List Event) : (s.drive es).clk = s.clk.after .clk es := rfl
@[simp] theorem State.drive_data (es : List Event) : (s.drive es).data = s.data.after .data es := rfl
@[simp] theorem State.drive_inited (es : List Event) : (s.drive es).inited = s.inited := rfl
@[simp] theorem State.drive_remap (es : List Event) : (s.drive es).remap = s.remap := rfl
@[simp] theorem State.drive_remapValid (es : List Event) : (s.drive es).remapValid = s.remapValid := rfl
@[simp] theorem State.drive_trace (es : List Event) : (s.drive es).trace = s.trace ++ es.filter s.shows := rfl
@[simp] theorem State.drive_results (es : List Event) : (s.drive es).results = s.results := rfl
@[simp] theorem State.drive_inbox (es : List Event) : (s.drive es).inbox = s.inbox := rfl
@[simp] theorem State.drive_micro (es : List Event) : (s.drive es).micro = s.micro := rfl

@[simp] theorem State.withLine_lvl (l : Line) (x : LineState) : (s.withLine l x).lvl = s.lvl := by cases l <;> rfl
@[simp] theorem State.withLine_curRgb (l : Line) (x : LineState) : (s.withLine l x).curRgb = s.curRgb := by cases l <;> rfl
@[simp] theorem State.withLine_curCw (l : Line) (x : LineState) : (s.withLine l x).curCw = s.curCw := by cases l <;> rfl
@[simp] theorem State.withLine_inited (l : Line) (x : LineState) : (s.withLine l x).inited = s.inited := by cases l <;> rfl
@[simp] theorem State.withLine_remap (l : Line) (x : LineState) : (s.withLine l x).remap = s.remap := by cases l <;> rfl
@[simp] theorem State.withLine_remapValid (l : Line) (x : LineState) : (s.withLine l x).remapValid = s.remapValid := by cases l <;> rfl
@[simp] theorem State.withLine_trace (l : Line) (x : LineState) : (s.withLine l x).trace = s.trace := by cases l <;> rfl
@[simp] theorem State.withLine_results (l : Line) (x : LineState) : (s.withLine l x).results = s.results := by cases l <;> rfl
@[simp] theorem State.withLine_inbox (l : Line) (x : LineState) : (s.withLine l x).inbox = s.inbox := by cases l <;> rfl
@[simp] theorem State.withLine_micro (l : Line) (x : LineState) : (s.withLine l x).micro = s.micro := by cases l <;> rfl

@[simp] theorem State.withLine_line_same (l : Line) (x : LineState) : (s.withLine l x).line l = x := by cases l <;> rfl

theorem State.withLine_line_other {l k : Line} (h : k ≠ l) (x : LineState) : (s.withLine l x).line k = s.line k := by
  cases l <;> cases k <;> first | rfl | exact absurd rfl h

@[simp] theorem State.line_clk : s.line .clk = s.clk := rfl

@[simp] theorem State.line_data : s.line .data = s.data := rfl

@[simp] theorem State.emit_line (e : Event) (l : Line) : (s.emit e).line l = s.line l := by cases l <;> rfl

@[simp] theorem State.ret_line (r : ResultCode) (l : Line) : (s.ret r).line l = s.line l := by cases l <;> rfl

@[simp] theorem State.drive_line (es : List Event) (l : Line) : (s.drive es).line l = (s.line l).after l es := by
  cases l <;> rfl

@[simp] theorem State.emit_bound (e : Event) (l : Line) : (s.emit e).bound l = s.bound l := by cases l <;> rfl

@[simp] theorem State.ret_bound (r : ResultCode) (l : Line) : (s.ret r).bound l = s.bound l := by cases l <;> rfl

@[simp] theorem State.setLvl_bound (x : Five UInt10) (l : Line) : (s.setLvl x).bound l = s.bound l := by cases l <;> rfl

@[simp] theorem State.setCurrents_bound (rgb cw : Byte) (l : Line) : (s.setCurrents rgb cw).bound l = s.bound l := by
  cases l <;> rfl

/-- The command index advances by one at each result code (10_state.md R33). -/
@[simp] theorem State.ret_commandIndex (r : ResultCode) : (s.ret r).commandIndex = s.commandIndex + 1 := by
  simp [State.commandIndex]

/-- Two states with the same fields are the same. -/
theorem State.ext_fields {s t : State} (lvl : s.lvl = t.lvl) (curRgb : s.curRgb = t.curRgb) (curCw : s.curCw = t.curCw)
    (clk : s.clk = t.clk) (data : s.data = t.data) (inited : s.inited = t.inited) (remap : s.remap = t.remap)
    (remapValid : s.remapValid = t.remapValid) (trace : s.trace = t.trace) (results : s.results = t.results)
    (inbox : s.inbox = t.inbox) (micro : s.micro = t.micro) : s = t := by
  cases s; cases t; simp_all

end Sys2Proof.Machine
end

