-- ==== Sys2Proof/Laws/Drive.lean ====
section
/-! SUPPORT. Every operation of the bit, byte and frame transport emits exactly a waveform: one equation an operation, from
which each later fact about TRACE, MODE and LATCH follows without unfolding the operation again. -/

namespace Sys2Proof.Machine

@[simp] theorem LineState.after_pin (x : LineState) (l : Line) (es : List Event) : (x.after l es).pin = x.pin := by
  unfold LineState.after; split <;> rfl

theorem LineState.after_of_unbound {x : LineState} (h : x.pin = none) (l : Line) (es : List Event) : x.after l es = x := by
  simp [LineState.after, h]

theorem LineState.after_mode_of_bound {x : LineState} (h : x.pin ≠ none) (l : Line) (es : List Event) :
    (x.after l es).mode = (lastMode l es).or x.mode := by
  simp [LineState.after, Option.isSome_iff_ne_none, h]

theorem LineState.after_latch_of_bound {x : LineState} (h : x.pin ≠ none) (l : Line) (es : List Event) :
    (x.after l es).latch = (lastLevel l es).or x.latch := by
  simp [LineState.after, Option.isSome_iff_ne_none, h]

/-- Events that set no mode of a line leave its mode as it was. -/
theorem LineState.after_mode_untouched {x : LineState} {l : Line} {es : List Event} (h : lastMode l es = none) :
    (x.after l es).mode = x.mode := by
  by_cases hb : x.pin = none
  · rw [LineState.after_of_unbound hb]
  · rw [LineState.after_mode_of_bound hb, h, Option.none_or]

/-- Events that drive no level on a line leave its latch as it was. -/
theorem LineState.after_latch_untouched {x : LineState} {l : Line} {es : List Event} (h : lastLevel l es = none) :
    (x.after l es).latch = x.latch := by
  by_cases hb : x.pin = none
  · rw [LineState.after_of_unbound hb]
  · rw [LineState.after_latch_of_bound hb, h, Option.none_or]

theorem State.bound_iff_pin {s : State} {l : Line} : s.bound l = true ↔ (s.line l).pin ≠ none := by
  simp [State.bound, Option.isSome_iff_ne_none]

theorem State.clk_pin_of_bound {s : State} (h : s.bound .clk = true) : s.clk.pin ≠ none := State.bound_iff_pin.1 h

theorem State.data_pin_of_bound {s : State} (h : s.bound .data = true) : s.data.pin ≠ none := State.bound_iff_pin.1 h

theorem lastLevel_append (l : Line) (a b : List Event) : lastLevel l (a ++ b) = (lastLevel l b).or (lastLevel l a) := by
  simp [lastLevel, List.getLast?_append]

theorem lastMode_append (l : Line) (a b : List Event) : lastMode l (a ++ b) = (lastMode l b).or (lastMode l a) := by
  simp [lastMode, List.getLast?_append]

theorem LineState.after_append (x : LineState) (l : Line) (a b : List Event) :
    x.after l (a ++ b) = (x.after l a).after l b := by
  by_cases h : x.pin.isSome <;>
    simp [LineState.after, h, lastLevel_append, lastMode_append, Option.or_assoc]

@[simp] theorem LineState.after_nil (x : LineState) (l : Line) : x.after l [] = x := by
  simp [LineState.after, lastLevel, lastMode]

@[simp] theorem State.drive_bound (s : State) (es : List Event) (l : Line) : (s.drive es).bound l = s.bound l := by
  simp [State.bound]

@[simp] theorem State.drive_shows (s : State) (es : List Event) : (s.drive es).shows = s.shows := by
  funext e; simp only [State.shows, State.drive_bound]

@[simp] theorem State.drive_nil (s : State) : s.drive [] = s := by simp [State.drive]

/-- With both lines bound every event of a waveform stands in TRACE. -/
theorem State.drive_trace_of_bound {s : State} (hc : s.bound .clk = true) (hd : s.bound .data = true) (es : List Event) :
    (s.drive es).trace = s.trace ++ es := by
  have shown : ∀ e, s.shows e = true := by
    intro e
    rcases e with ⟨_ | _, _⟩ | ⟨_ | _, _⟩ | _ <;> first | exact hc | exact hd | rfl
  simp [shown]

/-- Emitting one waveform after another is emitting their concatenation. -/
theorem State.drive_drive (s : State) (a b : List Event) : (s.drive a).drive b = s.drive (a ++ b) := by
  apply State.ext_fields <;>
    first
    | rfl
    | simp [LineState.after_append, List.filter_append]

/-- What SET_LINE's two events do to a line's registers. -/
theorem LineState.after_level (x : LineState) (l k : Line) (v : Level) :
    x.after l [.level k v, .settle] = if k = l ∧ x.pin.isSome then { x with latch := some v } else x := by
  rcases x with ⟨_ | p, m, q⟩ <;> cases l <;> cases k <;> rfl

/-- What SET_MODE's event does to a line's registers. -/
theorem LineState.after_mode (x : LineState) (l k : Line) (m : Mode) :
    x.after l [.mode k m] = if k = l ∧ x.pin.isSome then { x with mode := some m } else x := by
  rcases x with ⟨_ | p, n, q⟩ <;> cases l <;> cases k <;> rfl

@[simp] theorem State.shows_level (s : State) (l : Line) (v : Level) : s.shows (.level l v) = s.bound l := rfl

@[simp] theorem State.shows_mode (s : State) (l : Line) (m : Mode) : s.shows (.mode l m) = s.bound l := rfl

@[simp] theorem State.shows_settle (s : State) : s.shows .settle = true := rfl

/-- SET_LINE emits its level event and a settle (40_bit_transport.md R122). -/
theorem setLine_eq_drive (l : Line) (v : Level) (s : State) : setLine l v s = s.drive [.level l v, .settle] := by
  cases hb : s.bound l <;> cases l <;>
    simp_all [setLine, State.drive, State.emit, State.setLatch, State.withLine, State.line, LineState.after_level,
      State.bound, List.filter_cons]

/-- SET_MODE emits its mode event (40_bit_transport.md R124). -/
theorem setMode_eq_drive (l : Line) (m : Mode) (s : State) : setMode l m s = s.drive [.mode l m] := by
  cases hb : s.bound l <;> cases l <;>
    simp_all [setMode, State.drive, State.emit, State.setModeReg, State.withLine, State.line, LineState.after_mode,
      State.bound]

/-- A bare settle is a waveform of one event. -/
theorem emit_settle_eq_drive (s : State) : s.emit .settle = s.drive [.settle] := by
  apply State.ext_fields <;>
    simp [List.filter_cons, LineState.after, lastLevel, lastMode, Event.levelOn, Event.modeOn]

/-- WRITE_BIT emits the waveform of one bit (30_encoding.md R91). -/
theorem writeBit_eq_drive (b : Level) (s : State) : writeBit b s = s.drive (bitWave b) := by
  simp only [writeBit, setLine_eq_drive, State.drive_drive]; rfl

/-- ACK_CYCLE emits the acknowledgment's waveform (30_encoding.md R91). -/
theorem ackCycle_eq_drive (s : State) : ackCycle s = s.drive ackWave := by
  simp only [ackCycle, setLine_eq_drive, setMode_eq_drive, State.drive_drive]; rfl

/-- WRITE_BYTE emits the waveform of one byte (30_encoding.md R93). -/
theorem writeByte_eq_drive (x : Byte) (s : State) : writeByte x s = s.drive (byteWave x) := by
  simp only [writeByte, List.foldl_cons, List.foldl_nil, writeBit_eq_drive, ackCycle_eq_drive, State.drive_drive, byteWave]

/-- START emits the start condition's waveform (30_encoding.md R94). -/
theorem start_eq_drive (s : State) : start s = s.drive startWave := by
  simp only [start, setLine_eq_drive, State.drive_drive]; rfl

/-- STOP emits the stop condition's waveform (30_encoding.md R94). -/
theorem stop_eq_drive (s : State) : stop s = s.drive stopWave := by
  simp only [stop, setLine_eq_drive, State.drive_drive]; rfl

/-- The bytes of a buffer, written one after another, emit their waveforms in order. -/
theorem writeBytes_eq_drive (bytes : List Byte) (s : State) :
    bytes.foldl (fun t x => writeByte x t) s = s.drive (bytes.flatMap byteWave) := by
  induction bytes generalizing s with
  | nil => simp
  | cons x rest ih => rw [List.foldl_cons, ih, writeByte_eq_drive, State.drive_drive, List.flatMap_cons]

/-- WRITE_BUFFER emits the waveform of one frame of its first `count` bytes (30_encoding.md R94). -/
theorem writeBuffer_eq_drive (bytes : List Byte) (count : Nat) (s : State) :
    writeBuffer bytes count s = s.drive (frameWave (bytes.take count)) := by
  simp only [writeBuffer, start_eq_drive, stop_eq_drive, writeBytes_eq_drive, State.drive_drive, frameWave,
    List.append_assoc]

/-- PRE_INIT emits its eight events (43_current_and_init.md R230). -/
theorem preInit_eq_drive (s : State) : preInit s = s.drive preInitWave := by
  simp only [preInit, setLine_eq_drive, setMode_eq_drive, emit_settle_eq_drive, State.drive_drive]; rfl

@[simp] theorem buildFrame_length (L : Five UInt10) (rgb cw : Byte) : (buildFrame L rgb cw).length = 17 := rfl

@[simp] theorem zeroFrame_length (addr : Byte) : (zeroFrame addr).length = 17 := rfl

/-- FLUSH emits one frame, or the two of the sleep path (42_channel_encoding.md R190, R192). -/
theorem flush_eq_drive (s : State) : flush s = s.drive (flushWave s) := by
  unfold flush flushWave
  split
  · rw [writeBuffer_eq_drive, writeBuffer_eq_drive, State.drive_drive, List.take_of_length_le (by simp [frameLen]),
      List.take_of_length_le (by simp [frameLen])]
  · rw [writeBuffer_eq_drive, List.take_of_length_le (by simp [frameLen])]

/-- After a bit, CLK is driven low and DATA to the bit, and no mode is set. -/
@[simp] theorem lastLevel_bitWave (l : Line) (b : Level) :
    lastLevel l (bitWave b) = some (match l with | .clk => false | .data => b) := by cases l <;> rfl

@[simp] theorem lastMode_bitWave (l : Line) (b : Level) : lastMode l (bitWave b) = none := by cases l <;> rfl

@[simp] theorem lastLevel_ackWave (l : Line) :
    lastLevel l ackWave = (match l with | .clk => some false | .data => none) := by cases l <;> rfl

@[simp] theorem lastMode_ackWave (l : Line) :
    lastMode l ackWave = (match l with | .clk => none | .data => some .output) := by cases l <;> rfl

/-- After a byte, CLK is low and DATA's latch holds bit 0 (41_byte_frame_transport.md R148 corner (b)). -/
@[simp] theorem lastLevel_byteWave (l : Line) (x : Byte) :
    lastLevel l (byteWave x) = some (match l with | .clk => false | .data => x.getLsbD 0) := by
  cases l <;> simp [byteWave, lastLevel_append]

/-- After a byte, DATA is an output and CLK's mode was not touched. -/
@[simp] theorem lastMode_byteWave (l : Line) (x : Byte) :
    lastMode l (byteWave x) = (match l with | .clk => none | .data => some .output) := by
  cases l <;> simp [byteWave, lastMode_append]

@[simp] theorem lastLevel_startWave (l : Line) : lastLevel l startWave = some false := by cases l <;> rfl

@[simp] theorem lastMode_startWave (l : Line) : lastMode l startWave = none := by cases l <;> rfl

@[simp] theorem lastLevel_stopWave (l : Line) : lastLevel l stopWave = some true := by cases l <;> rfl

@[simp] theorem lastMode_stopWave (l : Line) : lastMode l stopWave = none := by cases l <;> rfl

/-- A frame leaves both lines driven high (41_byte_frame_transport.md R151 corner (b)). -/
@[simp] theorem lastLevel_frameWave (l : Line) (bytes : List Byte) : lastLevel l (frameWave bytes) = some true := by
  simp [frameWave, lastLevel_append]

/-- A frame sets no mode but DATA's, back to output. -/
theorem lastMode_frameWave_clk (bytes : List Byte) : lastMode .clk (frameWave bytes) = none := by
  have body : lastMode .clk (bytes.flatMap byteWave) = none := by
    induction bytes with
    | nil => rfl
    | cons x rest ih => simp [List.flatMap_cons, lastMode_append, ih]
  simp [frameWave, lastMode_append, body]

theorem lastMode_bytes_data (bytes : List Byte) :
    lastMode .data (bytes.flatMap byteWave) = if bytes = [] then none else some .output := by
  induction bytes with
  | nil => rfl
  | cons x rest ih => by_cases h : rest = [] <;> simp [List.flatMap_cons, lastMode_append, ih, h]

theorem lastMode_frameWave_data (bytes : List Byte) :
    lastMode .data (frameWave bytes) = if bytes = [] then none else some .output := by
  simp [frameWave, lastMode_append, lastMode_bytes_data]

@[simp] theorem lastLevel_flushWave (l : Line) (s : State) : lastLevel l (flushWave s) = some true := by
  unfold flushWave; split <;> simp [lastLevel_append]

theorem lastMode_flushWave_clk (s : State) : lastMode .clk (flushWave s) = none := by
  unfold flushWave; split <;> simp [lastMode_append, lastMode_frameWave_clk]

theorem lastMode_flushWave_data (s : State) : lastMode .data (flushWave s) = some .output := by
  unfold flushWave
  split
  · simp [lastMode_append, lastMode_frameWave_data, zeroFrame]
  · simp [lastMode_frameWave_data, buildFrame]

@[simp] theorem lastLevel_preInitWave (l : Line) : lastLevel l preInitWave = some false := by cases l <;> rfl

@[simp] theorem lastMode_preInitWave (l : Line) : lastMode l preInitWave = some .output := by cases l <;> rfl

/-- The settles of consecutive waveforms add up. -/
theorem settleCount_append (a b : List Event) : settleCount (a ++ b) = settleCount a + settleCount b := by
  simp [settleCount]

/-- The level events of consecutive waveforms add up. -/
theorem levelCount_append (a b : List Event) : levelCount (a ++ b) = levelCount a + levelCount b := by
  simp [levelCount]

/-- The mode events of consecutive waveforms add up. -/
theorem modeCount_append (a b : List Event) : modeCount (a ++ b) = modeCount a + modeCount b := by
  simp [modeCount]

/-- Reading k + 1 frames is reading one and then k. -/
theorem readFrames_succ {n : Nat} {es rest : List Event} {f : List Byte} (h : readFrame n es = some (f, rest)) (k : Nat) :
    readFrames (k + 1) n es = (readFrames k n rest).map (fun r => (f :: r.1, r.2)) := by
  simp [readFrames, h]

end Sys2Proof.Machine
end

