-- ==== Sys2Proof/Laws/Operands.lean ====
section
/-! SUPPORT. One lemma for each operand conversion that says when it succeeds and what it then gives. -/

namespace Sys2Proof

@[simp] theorem Five.get_map {α β : Type} (f : α → β) (x : Five α) (k : Fin 5) : (x.map f).get k = f (x.get k) := by
  fin_cases k <;> rfl

theorem Five.ext_get {α : Type} {x y : Five α} (h : ∀ k, x.get k = y.get k) : x = y := by
  obtain ⟨a, b, c, d, e⟩ := x
  obtain ⟨a', b', c', d', e'⟩ := y
  have h0 : a = a' := h 0
  have h1 : b = b' := h 1
  have h2 : c = c' := h 2
  have h3 : d = d' := h 3
  have h4 : e = e' := h 4
  subst h0 h1 h2 h3 h4; rfl

theorem Five.forall_fin {p : Fin 5 → Prop} : (∀ k, p k) ↔ p 0 ∧ p 1 ∧ p 2 ∧ p 3 ∧ p 4 := by
  constructor
  · intro h; exact ⟨h 0, h 1, h 2, h 3, h 4⟩
  · rintro ⟨h0, h1, h2, h3, h4⟩ k; fin_cases k <;> assumption

/-- A check of five succeeds exactly when each entry's check does. -/
theorem Five.check_eq_some {α β : Type} {f : α → Option β} {x : Five α} {y : Five β} :
    x.check f = some y ↔ ∀ k, f (x.get k) = some (y.get k) := by
  obtain ⟨a, b, c, d, e⟩ := x
  obtain ⟨a', b', c', d', e'⟩ := y
  rw [Five.forall_fin]
  simp only [Five.check, Five.get]
  cases f a <;> cases f b <;> cases f c <;> cases f d <;> cases f e <;> simp

/-- A check of five fails exactly when some entry's check does. -/
theorem Five.check_eq_none {α β : Type} {f : α → Option β} {x : Five α} :
    x.check f = none ↔ ∃ k, f (x.get k) = none := by
  obtain ⟨a, b, c, d, e⟩ := x
  rw [← not_iff_not, not_exists, Five.forall_fin]
  simp only [Five.check, Five.get]
  cases f a <;> cases f b <;> cases f c <;> cases f d <;> cases f e <;> simp

namespace Machine

/-- A list is five entries exactly when it is their listing. -/
theorem exactlyFive_eq_some {α : Type} {xs : List α} {x : Five α} : exactlyFive xs = some x ↔ xs = x.toList := by
  obtain ⟨a, b, c, d, e⟩ := x
  rcases xs with _ | ⟨_, _ | ⟨_, _ | ⟨_, _ | ⟨_, _ | ⟨_, _ | ⟨_, _⟩⟩⟩⟩⟩⟩ <;> simp [exactlyFive, Five.toList]

theorem exactlyFive_eq_none {α : Type} {xs : List α} : exactlyFive xs = none ↔ xs.length ≠ 5 := by
  rcases xs with _ | ⟨_, _ | ⟨_, _ | ⟨_, _ | ⟨_, _ | ⟨_, _ | ⟨_, _⟩⟩⟩⟩⟩⟩ <;> simp [exactlyFive]

theorem firstOne_eq_none {α : Type} {xs : List α} : firstOne xs = none ↔ xs.length < 1 := by
  rcases xs with _ | ⟨_, _⟩ <;> simp [firstOne]

theorem firstTwo_eq_none {α : Type} {xs : List α} : firstTwo xs = none ↔ xs.length < 2 := by
  rcases xs with _ | ⟨_, _ | ⟨_, _⟩⟩ <;> simp [firstTwo]

theorem firstFive_eq_none {α : Type} {xs : List α} : firstFive xs = none ↔ xs.length < 5 := by
  rcases xs with _ | ⟨_, _ | ⟨_, _ | ⟨_, _ | ⟨_, _ | ⟨_, _⟩⟩⟩⟩⟩ <;> simp [firstFive]

/-- An input is in range exactly when it is a rational from 0 to 255 (42_channel_encoding.md R170). -/
theorem levelInRange_eq_some {v : LevelInput} {q : Rat} :
    levelInRange v = some q ↔ v = .rat q ∧ 0 ≤ q ∧ q ≤ 255 := by
  have upper (q : Rat) : q.num ≤ 255 * (q.den : Int) ↔ q ≤ 255 := by
    rw [Rat.le_iff]; norm_num
  cases v with
  | rat p =>
    simp only [levelInRange, Rat.num_nonneg, upper, LevelInput.rat.injEq]
    split
    · rename_i h; simp only [Option.some.injEq]
      constructor
      · rintro rfl; exact ⟨rfl, h⟩
      · exact fun h => h.1
    · rename_i h
      simp only [reduceCtorEq, false_iff]
      rintro ⟨rfl, hp⟩; exact h hp
  | nan => simp [levelInRange]
  | posInf => simp [levelInRange]
  | negInf => simp [levelInRange]

/-- A remap entry is in range exactly when it is a channel number (42_channel_encoding.md R175). -/
theorem remapIndex_eq_some {r : Int} {i : Fin 5} : remapIndex r = some i ↔ r = (i.val : Int) := by
  unfold remapIndex
  split
  · rename_i h
    rw [Option.some.injEq, Fin.ext_iff, Fin.val_ofNat]
    omega
  · simp only [reduceCtorEq, false_iff]; omega

theorem remapIndex_eq_none {r : Int} : remapIndex r = none ↔ r < 0 ∨ 4 < r := by
  unfold remapIndex
  split <;> simp <;> omega

theorem hexVal_le {c : Char} {n : Nat} (h : hexVal c = some n) : n ≤ 15 := by
  unfold hexVal at h
  split at h
  · simp only [Option.some.injEq] at h; omega
  · split at h
    · simp only [Option.some.injEq] at h; omega
    · split at h
      · simp only [Option.some.injEq] at h; omega
      · cases h

theorem hexPair_le {a b : Char} {n : Nat} (h : hexPair a b = some n) : n ≤ 255 := by
  unfold hexPair at h
  split at h
  · rename_i x y ha hb
    have := hexVal_le ha
    have := hexVal_le hb
    simp only [Option.some.injEq] at h; omega
  · cases h

/-- Every byte HEX5 gives is at most 255 (42_channel_encoding.md R181). -/
theorem hex5_le {s : Str} {b : Five Nat} (h : hex5 s = some b) (k : Fin 5) : b.get k ≤ 255 := by
  unfold hex5 at h
  split at h
  · split at h
    · rename_i h0 h1 h2 h3 h4
      simp only [Option.some.injEq] at h
      subst h
      fin_cases k
      · exact hexPair_le h0
      · exact hexPair_le h1
      · exact hexPair_le h2
      · exact hexPair_le h3
      · exact hexPair_le h4
    · cases h
  · cases h

/-- RAW_COLOR's bytes are always inputs in range ("LEVEL_INPUT_OUT_OF_RANGE cannot occur", 42_channel_encoding.md R180). -/
theorem bytesAsInputs_inRange {b : Five Nat} (h : ∀ k, b.get k ≤ 255) :
    (bytesAsInputs b).check levelInRange = some (b.map (fun (n : Nat) => (n : Rat))) := by
  rw [Five.check_eq_some]
  intro k
  rw [levelInRange_eq_some, Five.get_map]
  refine ⟨by simp [bytesAsInputs], by positivity, ?_⟩
  exact_mod_cast h k

theorem currentInRange_iff {x : Int} : currentInRange x = true ↔ 0 ≤ x ∧ x ≤ 221 := by
  simp [currentInRange]

/-- CUR_XFORM as a number (43_current_and_init.md R220). -/
theorem curXform_toNat {x : Int} (h : 0 ≤ x ∧ x ≤ 221) :
    ((curXform x).toNat : Int) = if x > 63 then x + 34 else x := by
  unfold curXform
  rw [BitVec.toNat_ofInt]
  split <;> omega

/-- The low byte of PACK is the level modulo 32 (42_channel_encoding.md R198). -/
theorem packLo_toNat (x : UInt10) : (packLo x).toNat = x.toNat % 32 := by
  have := x.isLt
  simp only [packLo, BitVec.toNat_setWidth, BitVec.extractLsb'_toNat, Nat.shiftRight_zero]
  omega

/-- The high byte of PACK is the level divided by 32 (42_channel_encoding.md R198). -/
theorem packHi_toNat (x : UInt10) : (packHi x).toNat = x.toNat / 32 := by
  have := x.isLt
  simp only [packHi, BitVec.toNat_setWidth, BitVec.extractLsb'_toNat, Nat.shiftRight_eq_div_pow]
  omega

end Machine

end Sys2Proof
end

