-- ==== Sys2Proof/Laws/Exec.lean ====
section
/-! SUPPORT. Once for every operation, what it does when it answers a next state: every later fact about a step is a case of
`exec_next`. -/

namespace Sys2Proof.Machine

/-- A colour write that answers a next state has written LVL and run FLUSH. -/
theorem colorWrite_next {vs : Five LevelInput} {s t : State} (h : colorWrite vs s = .next t) :
    ∃ v r, vs.check levelInRange = some v ∧ s.remap.check remapIndex = some r ∧
      t = ((s.setLvl (gather v r)).drive (flushWave (s.setLvl (gather v r)))).ret .ok := by
  unfold colorWrite at h
  split at h
  · cases h
  · rename_i v hv
    split at h
    · cases h
    · rename_i r hr
      injection h with h
      exact ⟨v, r, hv, hr, by rw [← h, flush_eq_drive]⟩

/-- A registered command with enough arguments runs once INITED. -/
theorem whenRegistered_run {α : Type} {s : State} (hi : s.inited = true) (x : α)
    (run : α → Host.Outcome State Fault Refusal) : whenRegistered s (some x) run = run x := by
  simp [whenRegistered, hi]

/-- A registered command with too few arguments (60_exceptions.md R262). -/
theorem whenRegistered_few {α : Type} {s : State} (hi : s.inited = true)
    (run : α → Host.Outcome State Fault Refusal) : whenRegistered s none run = .next (s.ret .notEnoughArgs) := by
  simp [whenRegistered, hi]

/-- A registered command before INIT (60_exceptions.md R261). -/
theorem whenRegistered_early {α : Type} {s : State} (hi : s.inited = false) (operands : Option α)
    (run : α → Host.Outcome State Fault Refusal) :
    whenRegistered s operands run = .next (s.ret .notRegistered) := by
  simp [whenRegistered, hi]

/-- A registered command that answers a next state either returned an error result with nothing else changed, or ran. -/
theorem whenRegistered_next {α : Type} {s t : State} {operands : Option α}
    {run : α → Host.Outcome State Fault Refusal} (h : whenRegistered s operands run = .next t) :
    (∃ c, (c = .notRegistered ∨ c = .notEnoughArgs) ∧ t = s.ret c) ∨ (s.inited = true ∧ ∃ x, operands = some x ∧ run x = .next t) := by
  unfold whenRegistered at h
  split at h
  · rename_i hi
    split at h
    · injection h with h; exact .inl ⟨_, .inr rfl, h.symm⟩
    · rename_i x; exact .inr ⟨hi, x, rfl, h⟩
  · injection h with h; exact .inl ⟨_, .inl rfl, h.symm⟩

/-- INIT that answers a next state has rebound both lines, run PRE_INIT, registered the commands and applied the default
remap. -/
theorem execInit_next {clk data : Option PinId} {s t : State} (h : execInit clk data s = .next t) :
    pinConflict clk data = false ∧
      t = ((((s.rebind .clk clk).rebind .data data).drive preInitWave).register.defaultRemap).ret .ok := by
  unfold execInit at h
  split at h
  · cases h
  · rename_i hc
    injection h with h
    exact ⟨by simpa using hc, by rw [← h, preInit_eq_drive]⟩

/-- Everything an operation can do when it answers a next state. -/
theorem exec_next {i : Instr} {s t : State} (h : exec i s = .next t) :
    (i.port = .micro ∧ ∃ es, t = s.drive es) ∨
    (i.port = .host ∧ ∃ c, (c = .notRegistered ∨ c = .notEnoughArgs) ∧ t = s.ret c) ∨
    (((∃ vs, i = .writeColor vs) ∨ (s.inited = true ∧ ∃ args, i = .rawColor args)) ∧
      ∃ x, t = ((s.setLvl x).drive (flushWave (s.setLvl x))).ret .ok) ∨
    (s.inited = true ∧ (∃ args, i = .setRemap args) ∧ ∃ r, t = (s.configureRemap r).ret .ok) ∨
    (s.inited = true ∧ (∃ args, i = .setCurrent args) ∧ ∃ x y : Int, (0 ≤ x ∧ x ≤ 221) ∧ (0 ≤ y ∧ y ≤ 221) ∧
      t = ((s.setCurrents (curXform x) (curXform y)).drive
        (flushWave (s.setCurrents (curXform x) (curXform y)))).ret .ok) ∨
    (∃ clk data, i = .init clk data ∧ pinConflict clk data = false ∧
      t = ((((s.rebind .clk clk).rebind .data data).drive preInitWave).register.defaultRemap).ret .ok) := by
  cases i with
  | init clk data =>
    have := execInit_next h
    exact .inr (.inr (.inr (.inr (.inr ⟨clk, data, rfl, this⟩))))
  | writeColor vs =>
    change execWriteColor vs s = .next t at h
    unfold execWriteColor at h
    split at h
    · cases h
    · obtain ⟨v, r, -, -, ht⟩ := colorWrite_next h
      exact .inr (.inr (.inl ⟨.inl ⟨vs, rfl⟩, _, ht⟩))
  | rawColor args =>
    rcases whenRegistered_next h with ⟨c, hc, ht⟩ | ⟨hi, x, -, hx⟩
    · exact .inr (.inl ⟨rfl, c, hc, ht⟩)
    · split at hx
      · cases hx
      · obtain ⟨v, r, -, -, ht⟩ := colorWrite_next hx
        exact .inr (.inr (.inl ⟨.inr ⟨hi, args, rfl⟩, _, ht⟩))
  | setRemap args =>
    rcases whenRegistered_next h with ⟨c, hc, ht⟩ | ⟨hi, x, -, hx⟩
    · exact .inr (.inl ⟨rfl, c, hc, ht⟩)
    · split at hx
      · cases hx
      · injection hx with hx
        exact .inr (.inr (.inr (.inl ⟨hi, ⟨args, rfl⟩, x, hx.symm⟩)))
  | setCurrent args =>
    rcases whenRegistered_next h with ⟨c, hc, ht⟩ | ⟨hi, x, -, hx⟩
    · exact .inr (.inl ⟨rfl, c, hc, ht⟩)
    · split at hx
      · rename_i hr
        rw [Bool.and_eq_true, currentInRange_iff, currentInRange_iff] at hr
        injection hx with hx
        exact .inr (.inr (.inr (.inr (.inl ⟨hi, ⟨args, rfl⟩, x.1, x.2, hr.1, hr.2, by rw [← hx, flush_eq_drive]⟩))))
      · cases hx
  | setLine l v => injection h with h; exact .inl ⟨rfl, _, by rw [← h, setLine_eq_drive]⟩
  | setMode l m => injection h with h; exact .inl ⟨rfl, _, by rw [← h, setMode_eq_drive]⟩
  | writeBit b => injection h with h; exact .inl ⟨rfl, _, by rw [← h, writeBit_eq_drive]⟩
  | ackCycle => injection h with h; exact .inl ⟨rfl, _, by rw [← h, ackCycle_eq_drive]⟩
  | writeByte x => injection h with h; exact .inl ⟨rfl, _, by rw [← h, writeByte_eq_drive]⟩
  | start => injection h with h; exact .inl ⟨rfl, _, by rw [← h, start_eq_drive]⟩
  | stop => injection h with h; exact .inl ⟨rfl, _, by rw [← h, stop_eq_drive]⟩
  | writeBuffer bytes count =>
    change execWriteBuffer bytes count s = .next t at h
    unfold execWriteBuffer at h
    split at h
    · injection h with h; exact .inl ⟨rfl, _, by rw [← h, writeBuffer_eq_drive]⟩
    · cases h
  | flush => injection h with h; exact .inl ⟨rfl, _, by rw [← h, flush_eq_drive]⟩
  | preInit => injection h with h; exact .inl ⟨rfl, _, by rw [← h, preInit_eq_drive]⟩

/-- What rebinding does to a line: the same pin keeps its registers, another one makes them unknown (43_current_and_init.md
R232). -/
theorem State.rebind_line_same (l : Line) (p : Option PinId) (s : State) :
    (s.rebind l p).line l = if (s.line l).pin = p then s.line l else ⟨p, none, none⟩ := by
  simp [State.rebind]

theorem State.rebind_clk_clk (p : Option PinId) (s : State) :
    (s.rebind .clk p).clk = if s.clk.pin = p then s.clk else ⟨p, none, none⟩ := rfl

theorem State.rebind_data_data (p : Option PinId) (s : State) :
    (s.rebind .data p).data = if s.data.pin = p then s.data else ⟨p, none, none⟩ := rfl

@[simp] theorem State.rebind_clk_data (p : Option PinId) (s : State) : (s.rebind .clk p).data = s.data := rfl

@[simp] theorem State.rebind_data_clk (p : Option PinId) (s : State) : (s.rebind .data p).clk = s.clk := rfl

@[simp] theorem State.rebind_clk_pin (p : Option PinId) (s : State) : (s.rebind .clk p).clk.pin = p := by
  rw [State.rebind_clk_clk]; split <;> simp_all

@[simp] theorem State.rebind_data_pin (p : Option PinId) (s : State) : (s.rebind .data p).data.pin = p := by
  rw [State.rebind_data_data]; split <;> simp_all

@[simp] theorem State.rebind_lvl (l : Line) (p : Option PinId) (s : State) : (s.rebind l p).lvl = s.lvl := by simp [State.rebind]
@[simp] theorem State.rebind_curRgb (l : Line) (p : Option PinId) (s : State) : (s.rebind l p).curRgb = s.curRgb := by simp [State.rebind]
@[simp] theorem State.rebind_curCw (l : Line) (p : Option PinId) (s : State) : (s.rebind l p).curCw = s.curCw := by simp [State.rebind]
@[simp] theorem State.rebind_inited (l : Line) (p : Option PinId) (s : State) : (s.rebind l p).inited = s.inited := by simp [State.rebind]
@[simp] theorem State.rebind_remap (l : Line) (p : Option PinId) (s : State) : (s.rebind l p).remap = s.remap := by simp [State.rebind]
@[simp] theorem State.rebind_remapValid (l : Line) (p : Option PinId) (s : State) : (s.rebind l p).remapValid = s.remapValid := by simp [State.rebind]
@[simp] theorem State.rebind_trace (l : Line) (p : Option PinId) (s : State) : (s.rebind l p).trace = s.trace := by simp [State.rebind]
@[simp] theorem State.rebind_results (l : Line) (p : Option PinId) (s : State) : (s.rebind l p).results = s.results := by simp [State.rebind]
@[simp] theorem State.rebind_inbox (l : Line) (p : Option PinId) (s : State) : (s.rebind l p).inbox = s.inbox := by simp [State.rebind]
@[simp] theorem State.rebind_micro (l : Line) (p : Option PinId) (s : State) : (s.rebind l p).micro = s.micro := by simp [State.rebind]

/-- INIT's default remap changes the two remap fields only, and leaves REMAP_VALID true (43_current_and_init.md R232). -/
theorem State.defaultRemap_eq (s : State) :
    s.defaultRemap = { s with remap := if s.remapValid then s.remap else identityRemap, remapValid := true } := by
  unfold State.defaultRemap
  split
  · rename_i h; cases s; simp_all
  · rfl

end Sys2Proof.Machine
end

