-- ==== Sys2Proof/Laws/PerInstr.lean ====
section
/-! SUPPORT. Facts about every operation as syntax, one lemma a constructor. -/

namespace Sys2Proof.Laws

open Sys2Proof

/-- Decoding an operation's own word and arguments at its own port gives the operation back (30_encoding.md R80 to R83). -/
def RoundTrip.Statement (i : Instr) : Prop := decode (encode i).1 (encode i).2.1 (encode i).2.2 = .ok i

theorem RoundTrip.init (clk data : Option PinId) : RoundTrip.Statement (.init clk data) := rfl
theorem RoundTrip.writeColor (vs : List LevelInput) : RoundTrip.Statement (.writeColor vs) := rfl
theorem RoundTrip.rawColor (args : List Str) : RoundTrip.Statement (.rawColor args) := rfl
theorem RoundTrip.setRemap (args : List Int) : RoundTrip.Statement (.setRemap args) := rfl
theorem RoundTrip.setCurrent (args : List Int) : RoundTrip.Statement (.setCurrent args) := rfl
theorem RoundTrip.setLine (l : Line) (v : Level) : RoundTrip.Statement (.setLine l v) := rfl
theorem RoundTrip.setMode (l : Line) (m : Mode) : RoundTrip.Statement (.setMode l m) := rfl
theorem RoundTrip.writeBit (b : Level) : RoundTrip.Statement (.writeBit b) := rfl
theorem RoundTrip.ackCycle : RoundTrip.Statement .ackCycle := rfl
theorem RoundTrip.writeByte (x : Byte) : RoundTrip.Statement (.writeByte x) := rfl
theorem RoundTrip.start : RoundTrip.Statement .start := rfl
theorem RoundTrip.stop : RoundTrip.Statement .stop := rfl
theorem RoundTrip.writeBuffer (bytes : List Byte) (count : Nat) : RoundTrip.Statement (.writeBuffer bytes count) := rfl
theorem RoundTrip.flush : RoundTrip.Statement .flush := rfl
theorem RoundTrip.preInit : RoundTrip.Statement .preInit := rfl

end Sys2Proof.Laws
end

