-- ==== Sys2Proof/Laws/Step.lean ====
section
/-! SUPPORT. One equation for each thing a step can find to do, and what a step that answers a next state has done. -/

namespace Sys2Proof.Machine

theorem step_micro {s : State} {w : Byte} {a : Args} (h : s.micro = some (w, a)) :
    step s = runMicro w a { s with micro := none } := by
  simp only [step, h]

theorem step_idle {s : State} (hm : s.micro = none) (hi : s.inbox = []) : step s = .next s := by
  simp only [step, hm, hi]

theorem step_command {s : State} {w : Byte} {a : Args} {rest : List HostMove} (hm : s.micro = none)
    (hi : s.inbox = .command w a :: rest) : step s = runCommand w a { s with inbox := rest } := by
  simp only [step, hm, hi]

theorem step_remapStore {s : State} {r : Five Int} {valid : Bool} {rest : List HostMove} (hm : s.micro = none)
    (hi : s.inbox = .remapStore r valid :: rest) :
    step s = .next (hostRemapStore r valid { s with inbox := rest }) := by
  simp only [step, hm, hi]

/-- A decoded operation belongs to the port it was decoded at. -/
theorem decode_port {p : Port} {w : Byte} {a : Args} {i : Instr} (h : decode p w a = .ok i) : i.port = p := by
  cases p with
  | host => simp only [decode, decodeHost] at h; split at h <;> first | cases h; rfl | cases h
  | micro => simp only [decode, decodeMicro] at h; split at h <;> first | cases h; rfl | cases h

/-- What a host command that answers a next state has done: it ran a host operation, or its opcode was unknown. -/
theorem runCommand_next {w : Byte} {a : Args} {s t : State} (h : runCommand w a s = .next t) :
    (∃ i, decode .host w a = .ok i ∧ i.port = .host ∧ exec i s = .next t) ∨
      (decode .host w a = .error .unknownCommand ∧ t = s.ret .unknownCommand) := by
  unfold runCommand at h
  split at h
  · rename_i i hi; exact .inl ⟨i, hi, decode_port hi, h⟩
  · rename_i hd; injection h with h; exact .inr ⟨hd, h.symm⟩
  · cases h
  · cases h

theorem runMicro_next {w : Byte} {a : Args} {s t : State} (h : runMicro w a s = .next t) :
    ∃ i, decode .micro w a = .ok i ∧ i.port = .micro ∧ exec i s = .next t := by
  unfold runMicro at h
  split at h
  · rename_i i hi; exact ⟨i, hi, decode_port hi, h⟩
  · cases h
  · cases h
  · cases h

/-- Everything a step can do when it answers a next state. -/
theorem step_next {s t : State} (h : step s = .next t) :
    (∃ i, i.port = .micro ∧ s.micro ≠ none ∧ exec i { s with micro := none } = .next t) ∨
    (s.micro = none ∧ s.inbox = [] ∧ t = s) ∨
    (s.micro = none ∧ ∃ w a rest, s.inbox = .command w a :: rest ∧
      ((∃ i, decode .host w a = .ok i ∧ i.port = .host ∧ exec i { s with inbox := rest } = .next t) ∨
        (decode .host w a = .error .unknownCommand ∧
          t = State.ret .unknownCommand { s with inbox := rest }))) ∨
    (s.micro = none ∧ ∃ r valid rest, s.inbox = .remapStore r valid :: rest ∧
      t = hostRemapStore r valid { s with inbox := rest }) := by
  rcases Option.eq_none_or_eq_some s.micro with hm | ⟨⟨w, a⟩, hm⟩
  · rcases hi : s.inbox with _ | ⟨⟨w, a⟩ | ⟨r, valid⟩, rest⟩
    · rw [step_idle hm hi] at h
      injection h with h
      exact .inr (.inl ⟨hm, rfl, h.symm⟩)
    · rw [step_command hm hi] at h
      exact .inr (.inr (.inl ⟨hm, w, a, rest, rfl, runCommand_next h⟩))
    · rw [step_remapStore hm hi] at h
      injection h with h
      exact .inr (.inr (.inr ⟨hm, r, valid, rest, rfl, h.symm⟩))
  · rw [step_micro hm] at h
    obtain ⟨i, -, hp, hx⟩ := runMicro_next h
    exact .inl ⟨i, hp, by simp [hm], hx⟩

theorem safeRun_zero {s t : State} : SafeRun 0 s t ↔ s = t := by
  constructor
  · intro h; injection h
  · rintro rfl; rfl

/-- A safe run is a step that answers a next state and a safe run from there. -/
theorem safeRun_succ {n : Nat} {s t : State} : SafeRun (n + 1) s t ↔ ∃ u, step s = .next u ∧ SafeRun n u t := by
  constructor
  · intro h
    have h := (Host.Core.run.eq_2 Sys2Proof.core s n).symm.trans h
    cases hs : Sys2Proof.core.step s with
    | next u => rw [hs] at h; exact ⟨u, hs, h⟩
    | fault r => rw [hs] at h; cases h
    | refused r => rw [hs] at h; cases h
  · rintro ⟨u, hu, h⟩
    have hu : Sys2Proof.core.step s = .next u := hu
    refine (Host.Core.run.eq_2 Sys2Proof.core s n).trans ?_
    rw [hu]; exact h

/-- What holds at the start of a safe run and is kept by every step holds at its end. -/
theorem SafeRun.keeps {P : State → Prop} (kept : ∀ s t, P s → step s = .next t → P t) {n : Nat} {s t : State}
    (run : SafeRun n s t) (start : P s) : P t := by
  induction n generalizing s with
  | zero => rw [safeRun_zero] at run; exact run ▸ start
  | succ n ih =>
    obtain ⟨u, hu, rest⟩ := safeRun_succ.1 run
    exact ih rest (kept s u start hu)

end Sys2Proof.Machine
end

