-- ==== Sys2Proof/Tests/Slice0.lean ====
section
/-! SUPPORT. The model's own tests: the encoding tables of 30_encoding.md word by word, vectors of 95_test_vectors.md one step
each, the smoke test of WellFormed, and for every statement with hypotheses a concrete state and operands that meet them. -/

namespace Sys2Proof.Tests

open Sys2Proof Sys2Proof.Machine

/-- The two pins of the example of 43_current_and_init.md R232. -/
def pin7 : PinId := ⟨7, rfl⟩
def pin8 : PinId := ⟨8, rfl⟩

/-- A block after INIT 7 8: both lines bound, low outputs, the identity remap. -/
def ready : State :=
  { State.reset with
    clk := ⟨some pin7, some .output, some false⟩, data := ⟨some pin8, some .output, some false⟩
    inited := true, remap := ⟨0, 1, 2, 3, 4⟩, remapValid := true }

/-- The same with the given levels. -/
def lit (L : Five UInt10) : State := { ready with lvl := L }

/-- One channel of each group lit: a MODE5 state. -/
def lit5 : State := lit ⟨1023, 0, 0, 0, 513⟩

def nextOf (o : Host.Outcome State Fault Refusal) : Option State :=
  match o with
  | .next t => some t
  | _ => none

def refusalOf (o : Host.Outcome State Fault Refusal) : Option Refusal :=
  match o with
  | .refused r => some r
  | _ => none

/-! ### Decoding: the code columns of 30_encoding.md R80 and R83, bit by bit -/

theorem test_decode_init : decode .host 0b00000001#8 (.pins (some pin7) none) = .ok (.init (some pin7) none) := by decide
theorem test_decode_writeColor : decode .host 0b00000010#8 (.levels [.nan]) = .ok (.writeColor [.nan]) := by decide
theorem test_decode_rawColor : decode .host 0b00000011#8 (.strings [['F', 'a']]) = .ok (.rawColor [['F', 'a']]) := by decide
theorem test_decode_setRemap : decode .host 0b00000100#8 (.ints [4, -1]) = .ok (.setRemap [4, -1]) := by decide
theorem test_decode_setCurrent : decode .host 0b00000101#8 (.ints [70, 20]) = .ok (.setCurrent [70, 20]) := by decide
theorem test_decode_setLine : decode .micro 0b10000000#8 (.lineLevel .data true) = .ok (.setLine .data true) := by decide
theorem test_decode_setMode : decode .micro 0b10000001#8 (.lineMode .clk .input) = .ok (.setMode .clk .input) := by decide
theorem test_decode_writeBit : decode .micro 0b10000010#8 (.bit true) = .ok (.writeBit true) := by decide
theorem test_decode_ackCycle : decode .micro 0b10000011#8 .none = .ok .ackCycle := by decide
theorem test_decode_writeByte : decode .micro 0b10000100#8 (.byte 0xA5) = .ok (.writeByte 0xA5) := by decide
theorem test_decode_start : decode .micro 0b10000101#8 .none = .ok .start := by decide
theorem test_decode_stop : decode .micro 0b10000110#8 .none = .ok .stop := by decide
theorem test_decode_writeBuffer : decode .micro 0b10000111#8 (.buffer [1, 2] 1) = .ok (.writeBuffer [1, 2] 1) := by decide
theorem test_decode_flush : decode .micro 0b10001000#8 .none = .ok .flush := by decide
theorem test_decode_preInit : decode .micro 0b10001001#8 .none = .ok .preInit := by decide

/-- L2-J2: a micro-operation's code is no host command (R84). -/
theorem test_decode_host_rejects_micro : decode .host 0x84#8 (.byte 0) = .error .unknownCommand := by decide
/-- A host opcode is no micro-operation (R83). -/
theorem test_decode_micro_rejects_host : decode .micro 0x05#8 (.ints [1, 2]) = .error .notMicroOperation := by decide
/-- Arguments of another row's type (R80, R82). -/
theorem test_decode_rejects_wrong_type : decode .host 0x05#8 (.strings []) = .error .argsIllTyped := by decide

/-! ### WellFormed: an ill-formed term for each check -/

theorem test_wellFormed_rejects_four_inputs : (Instr.writeColor [.rat 1, .rat 2, .rat 3, .rat 4]).wellFormed = false := by decide
theorem test_wellFormed_rejects_count : (Instr.writeBuffer [1, 2] 3).wellFormed = false := by decide
theorem test_wellFormed_accepts : (Instr.writeBuffer [1, 2] 2).wellFormed = true := by decide

/-! ### Vectors of 95_test_vectors.md -/

/-- L2-A1 and L2-A2: the level event also when the level does not change. -/
theorem test_setLine : (nextOf (exec (.setLine .clk false) ready)).map (fun t => (t.trace, t.clk.latch)) =
    some ([.level .clk false, .settle], some false) := by decide
/-- L2-A3: on an unbound line the settle alone. -/
theorem test_setLine_unbound : (nextOf (exec (.setLine .data true) State.reset)).map (fun t => (t.trace, t.data)) =
    some ([.settle], ⟨none, none, none⟩) := by decide
/-- L2-A4: no settle, and the latch is kept. -/
theorem test_setMode : (nextOf (exec (.setMode .data .input) ready)).map (fun t => (t.trace, t.data)) =
    some ([.mode .data .input], ⟨some pin8, some .input, some false⟩) := by decide
/-- L2-A5. -/
theorem test_setMode_unbound : (nextOf (exec (.setMode .clk .output) State.reset)).map (·.trace) = some [] := by decide
/-- L2-A7. -/
theorem test_writeBit : (nextOf (exec (.writeBit true) ready)).map (·.trace) =
    some [.level .data true, .settle, .level .clk true, .settle, .level .clk false, .settle] := by decide
/-- L2-A8. -/
theorem test_writeBit_unbound : (nextOf (exec (.writeBit true) State.reset)).map (·.trace) =
    some [.settle, .settle, .settle] := by decide
/-- L2-B1. -/
theorem test_ackCycle : (nextOf (exec .ackCycle { ready with data := ⟨some pin8, some .output, some true⟩ })).map
      (fun t => (t.trace, t.data, t.clk.latch)) =
    some ([.mode .data .input, .level .clk true, .settle, .level .clk false, .settle, .mode .data .output],
      ⟨some pin8, some .output, some true⟩, some false) := by decide
/-- L2-B2: the bits of 0xA5 on DATA are 1, 0, 1, 0, 0, 1, 0, 1. -/
theorem test_writeByte : (nextOf (exec (.writeByte 0xA5) ready)).map
      (fun t => (t.trace.length, t.trace.filterMap (Event.levelOn .data))) =
    some (54, [true, false, true, false, false, true, false, true]) := by decide
/-- L2-B6: bit 0 stays on DATA's latch. -/
theorem test_writeByte_latch : (nextOf (exec (.writeByte 0x01) ready)).map (fun t => (t.data.latch, t.clk.latch)) =
    some (some true, some false) := by decide
/-- L2-B7. -/
theorem test_start : (nextOf (exec .start ready)).map (·.trace) =
    some [.level .data false, .settle, .level .clk false, .settle] := by decide
/-- L2-B8. -/
theorem test_stop : (nextOf (exec .stop ready)).map (fun t => (t.trace, t.clk.latch, t.data.latch)) =
    some ([.level .clk true, .settle, .level .data true, .settle], some true, some true) := by decide
/-- The bytes go out in index order, as many as counted (R152). -/
theorem test_writeBuffer : (nextOf (exec (.writeBuffer [0x80, 0x01, 0xFF] 2) ready)).map
      (fun t => t.trace.filterMap (Event.levelOn .data)) =
    some [false, true, false, false, false, false, false, false, false, false, false, false, false, false, false, false,
      true, true] := by decide +kernel
/-- 41_byte_frame_transport.md R152 corner (a). -/
theorem test_writeBuffer_empty : (nextOf (exec (.writeBuffer [] 0) ready)).map (·.trace) =
    some [.level .data false, .settle, .level .clk false, .settle, .level .clk true, .settle, .level .data true,
      .settle] := by decide
/-- L2-I1, L2-I6: PRE_INIT's events with both lines bound, and with CLK unbound. -/
theorem test_preInit : (nextOf (exec .preInit ready)).map (·.trace) =
    some [.mode .data .output, .settle, .mode .clk .output, .settle, .level .data false, .settle, .level .clk false,
      .settle] := by decide
theorem test_preInit_clk_unbound : (nextOf (exec .preInit { ready with clk := ⟨none, none, none⟩ })).map (·.trace) =
    some [.mode .data .output, .settle, .settle, .level .data false, .settle, .settle] := by decide
/-- As L2-I5 with the roles exchanged: both lines are rebound on a bus left high, levels and codes kept. -/
theorem test_init_rebinds :
    (nextOf (exec (.init (some pin8) (some pin7)) { lit5 with
      clk := ⟨some pin7, some .output, some true⟩, data := ⟨some pin8, some .output, some true⟩, curRgb := 104 })).map
      (fun t => (t.clk, t.data, t.lvl, t.curRgb, t.results)) =
    some (⟨some pin8, some .output, some false⟩, ⟨some pin7, some .output, some false⟩, ⟨1023, 0, 0, 0, 513⟩, 104, [.ok]) := by
  decide
/-- Rebinding alone makes MODE and LATCH unknown (R232), and the same pin keeps them. -/
theorem test_rebind : (ready.rebind .clk (some pin8)).clk = ⟨some pin8, none, none⟩ ∧
    (ready.rebind .clk (some pin7)).clk = ⟨some pin7, some .output, some false⟩ := by decide
/-- L2-I2: a configured remap is kept; and L3 P5 command 3: a line rebound to none is unknown. -/
theorem test_init_keeps_remap :
    (nextOf (exec (.init none (some pin8)) { ready with remap := ⟨1, 0, 2, 3, 4⟩ })).map (fun t => (t.remap, t.clk)) =
    some (⟨1, 0, 2, 3, 4⟩, ⟨none, none, none⟩) := by decide
/-- L2-G6: gather, not scatter. -/
theorem test_writeColor_gathers :
    (nextOf (exec (.writeColor [.rat 10, .rat 20, .rat 30, .rat 40, .rat 50]) { ready with remap := ⟨1, 2, 3, 4, 0⟩ })).map
      (·.lvl) = some ⟨80, 120, 160, 200, 40⟩ := by decide +kernel
/-- L2-J8: the inputs are checked before the remap entries. -/
theorem test_writeColor_checks_inputs_first :
    refusalOf (exec (.writeColor [.rat 300, .rat 0, .rat 0, .rat 0, .rat 0]) { ready with remap := ⟨0, 1, 2, 3, 5⟩ }) =
      some .levelInputOutOfRange := by decide
/-- L2-G7. -/
theorem test_rawColor :
    (nextOf (exec (.rawColor [['8', '0', '0', '0', '0', '0', '0', '0', 'F', 'f']]) ready)).map (fun t => (t.lvl, t.results)) =
      some (⟨513, 0, 0, 0, 1023⟩, [.ok]) := by decide +kernel
/-- L2-G10. -/
theorem test_rawColor_malformed :
    refusalOf (exec (.rawColor [['F', 'F', '0', '0', '0', '0', '0', '0', 'G', 'G']]) ready) = some .rawHexMalformed := by decide
/-- L2-G13. -/
theorem test_setRemap : (nextOf (exec (.setRemap [4, 3, 2, 1, 0, 9]) { ready with remapValid := false })).map
      (fun t => (t.remap, t.remapValid, t.trace)) = some (⟨4, 3, 2, 1, 0⟩, true, []) := by decide
/-- L2-G15. -/
theorem test_setRemap_range : refusalOf (exec (.setRemap [0, 1, 2, 3, 5]) ready) = some .remapArgOutOfRange := by decide
/-- L2-H8. -/
theorem test_setCurrent : (nextOf (exec (.setCurrent [100, 221, 7]) (lit ⟨0, 0, 0, 0, 1023⟩))).map
      (fun t => (t.curRgb, t.curCw, t.results)) = some (134, 255, [.ok]) := by decide +kernel
/-- L2-J5: too few arguments come before their range. -/
theorem test_setCurrent_few : (nextOf (exec (.setCurrent [222]) ready)).map (fun t => (t.results, t.curRgb, t.trace)) =
    some ([.notEnoughArgs], 14, []) := by decide
/-- L2-F1, F2, F5, F8: the frames of the three modes. -/
theorem test_frame_mode2 : buildFrame ⟨0, 0, 0, 256, 802⟩ 14 14 =
    [Config.addrOut2ch, Config.en2ch, 0, 0, 0, 14, 14, 0, 0, 0, 0, 0, 0, 0, 8, 2, 25] := by rfl
theorem test_frame_mode3 : buildFrame ⟨40, 80, 120, 0, 0⟩ 104 20 =
    [Config.addrOut3ch, Config.en3ch, 104, 104, 104, 0, 0, 8, 1, 16, 2, 24, 3, 0, 0, 0, 0] := by rfl
theorem test_frame_mode5 : buildFrame ⟨1023, 0, 0, 0, 513⟩ 104 20 =
    [Config.addrOut, Config.en5ch, 104, 104, 104, 20, 20, 31, 31, 0, 0, 0, 0, 0, 0, 1, 16] := by rfl
/-- L2-E: the edge case of 93_implementation_defined.md I13, only channel 1 lit, is MODE3; 10001 is MODE5. -/
theorem test_selectMode : selectMode ⟨0, 4, 0, 0, 0⟩ = .mode3 ∧ selectMode ⟨0, 0, 1, 1, 0⟩ = .mode5 ∧
    selectMode ⟨0, 0, 0, 0, 4⟩ = .mode2 := by decide
/-- L2-F11: all dark, FLUSH sends the output address with zeros, then the sleep address with zeros (R192). -/
theorem test_flush_dark : nextOf (exec .flush ready) =
    some (writeBuffer (Config.addrSleep :: List.replicate 16 0) 17
      (writeBuffer (Config.addrOut :: List.replicate 16 0) 17 ready)) := by rfl
theorem test_flush_lit : nextOf (exec .flush lit5) =
    some (writeBuffer [Config.addrOut, Config.en5ch, 14, 14, 14, 14, 14, 31, 31, 0, 0, 0, 0, 0, 0, 1, 16] 17 lit5) := by rfl
/-- L2-C: P_SCALE at 0, 1/4, 127.5 (511, 90_conflicts.md C5), 254 and 255. -/
theorem test_pScale : pScale 0 = 0 ∧ pScale ⟨1, 4, by decide, by decide⟩ = 1 ∧ pScale ⟨255, 2, by decide, by decide⟩ = 511 ∧
    pScale 254 = 1018 ∧ pScale 255 = 1023 := by decide
/-- L2-H: CUR_XFORM at 30, 63, 64, 70, 221. -/
theorem test_curXform : curXform 30 = 30 ∧ curXform 63 = 63 ∧ curXform 64 = 98 ∧ curXform 70 = 104 ∧ curXform 221 = 255 := by
  decide
/-- The first and last digit of each of HEX5's three ranges, and the characters beside them (R181). -/
theorem test_hexVal : ['0', '9', 'A', 'F', 'a', 'f'].map hexVal = [some 0, some 9, some 10, some 15, some 10, some 15] ∧
    ['/', ':', '@', 'G', '`', 'g'].map hexVal = [none, none, none, none, none, none] := by decide

/-! ### Steps -/

/-- L2-J1, L2-J3: unknown opcodes. -/
theorem test_step_unknown : (nextOf (step { ready with inbox := [.command 0x06 .none] })).map
    (fun t => (t.results, t.inbox, t.trace)) = some ([.unknownCommand], [], []) := by decide
/-- L2-J4: registration comes before the argument count. -/
theorem test_step_early : (nextOf (step { State.reset with inbox := [.command 0x03 (.strings [])] })).map (·.results) =
    some [.notRegistered] := by decide
/-- A wrongly typed argument list and a stray code on the internal port are refused by name. -/
theorem test_step_ill_typed : refusalOf (step { ready with inbox := [.command 0x05 (.strings [])] }) = some .argsIllTyped := by
  decide
theorem test_step_stray_micro : refusalOf (step { ready with micro := some (0x05, .ints [1, 2]) }) =
    some .notMicroOperation := by decide
/-- Every row of the opcode table decodes from its bare word. -/
theorem test_table_words : (([0x01, 0x02, 0x03, 0x04, 0x05, 0x80, 0x81, 0x82, 0x83, 0x84, 0x85, 0x86, 0x87, 0x88,
    0x89] : List Nat).map (fun w => (decodeTableWord 8 w).map Instr.opcode)) =
    [some 0x01, some 0x02, some 0x03, some 0x04, some 0x05, some 0x80, some 0x81, some 0x82, some 0x83, some 0x84, some 0x85,
      some 0x86, some 0x87, some 0x88, some 0x89] := by decide

/-! ### Witnesses: the hypotheses of each statement can be met -/

theorem witness_UnknownOpcodeReturnsUnknownCommand :
    (ready.micro = none ∧ ({ ready with inbox := [.command 0x80 .none] } : State).inbox = [.command 0x80 .none] ∧
      (0x05 < (0x80#8).toNat) ∧ (0x00#8).toNat < 0x01 ∧ 0x05 < (0x06#8).toNat) ∧
    (¬ ((0x01#8).toNat < 0x01 ∨ 0x05 < (0x01#8).toNat) ∧ ¬ ((0x05#8).toNat < 0x01 ∨ 0x05 < (0x05#8).toNat) ∧
      (nextOf (step { ready with inbox := [.command 0x01 (.pins none none)] })).isSome = true ∧
      (nextOf (step { ready with inbox := [.command 0x05 (.ints [])] })).isSome = true) := by decide
theorem witness_StepRunsHostCommand : ready.micro = none ∧
    ({ ready with inbox := [.command 0x05 (.ints [5, 6])] } : State).inbox = [.command 0x05 (.ints [5, 6])] ∧
    decode .host 0x05 (.ints [5, 6]) = .ok (.setCurrent [5, 6]) := by decide
theorem witness_StepRunsSelectedMicroOperation :
    ({ ready with micro := some (0x85, .none) } : State).micro = some (0x85, .none) ∧
    decode .micro 0x85 .none = .ok .start := by decide
theorem witness_StepWaitsWithoutMove : ready.micro = none ∧ ready.inbox = [] := by decide
theorem witness_HostChangesRemapStoreOnly : ready.micro = none ∧
    ({ ready with inbox := [.remapStore ⟨9, 0, -1, 3, 4⟩ false] } : State).inbox = [.remapStore ⟨9, 0, -1, 3, 4⟩ false] := by
  decide
theorem witness_PlacedTableWordRunsNext : decodeTableWord 8 0x01 = some (.init none none) ∧
    decodeTableWord 8 0x89 = some .preInit := by decide
theorem witness_SetLineResult : ready.bound .data = true ∧ ready.bound .clk = true ∧ State.reset.bound .data = false ∧
    State.reset.bound .clk = false := by decide
theorem witness_SetModeResult : ready.bound .data = true ∧ ready.bound .clk = true ∧ State.reset.bound .data = false ∧
    State.reset.bound .clk = false := by decide
theorem witness_WriteBitResult : State.reset.bound .clk = false ∧ State.reset.bound .data = false := by decide
theorem witness_PadLevelFollowsModeAndLatch : (ready.line .clk).mode = some .output ∧ (State.reset.line .data).mode = none ∧
    (({ ready with data := ⟨some pin8, some .input, some true⟩ } : State).line .data).mode = some .input := by decide
theorem witness_AckCycleResult : ready.bound .data = true ∧ ready.bound .clk = true := by decide
theorem witness_WriteByteResult : ready.bound .data = true ∧ ready.bound .clk = true := by decide
theorem witness_StartResult : ready.bound .clk = true ∧ ready.bound .data = true := by decide
theorem witness_StopResult : ready.bound .clk = true ∧ ready.bound .data = true := by decide
theorem witness_WriteBufferResult : 0 ≤ ([] : List Byte).length ∧ 2 ≤ ([0x80, 0x01] : List Byte).length ∧
    1 ≤ ([0x80, 0x01] : List Byte).length := by decide
theorem witness_FrameEventCounts : 2 ≤ ([0x80, 0x01] : List Byte).length ∧ ready.bound .clk = true ∧
    ready.bound .data = true := by decide
theorem witness_EventCountsOfEachOperation : ready.bound .clk = true ∧ ready.bound .data = true ∧
    (nextOf (exec (.writeBuffer (List.replicate 17 0) 17) ready)).isSome = true ∧
    (nextOf (exec (.writeColor [.rat 0, .rat 0, .rat 0, .rat 0, .rat 9]) ready)).isSome = true ∧
    (nextOf (exec (.init (some pin7) (some pin8)) State.reset)).isSome = true ∧
    (nextOf (exec (.setRemap [0, 0, 0, 0, 0]) ready)).isSome = true ∧
    (nextOf (step { ready with inbox := [.command 0x05 (.ints [5])] })).map (·.results) = some [.notEnoughArgs] := by
  decide +kernel
theorem witness_EventCounts_rawColor : (nextOf (exec (.rawColor [['0', '0', '0', '0', '0', '0', '0', '0', 'F', 'F']])
    ready)).map (·.results) = some (ready.results ++ [.ok]) := by decide +kernel
theorem witness_EventCounts_setCurrent : (nextOf (exec (.setCurrent [70, 20]) lit5)).map (·.results) =
    some (lit5.results ++ [.ok]) := by decide +kernel
theorem witness_DataMovesOnlyWhileClkLow : ready.bound .clk = true ∧ ready.bound .data = true ∧
    (nextOf (exec (.writeBuffer [] 0) ready)).isSome = true ∧ (nextOf (exec (.writeBuffer [0x5A] 1) ready)).isSome = true ∧
    (nextOf (exec .flush ready)).isSome = true ∧ allZero ready.lvl = true ∧ allZero lit5.lvl = false := by decide
theorem witness_WaveformDeterminesBytes : ready.bound .clk = true ∧ ready.bound .data = true ∧
    0 ≤ ([] : List Byte).length ∧ 2 ≤ ([0x80, 0x01, 0xFF] : List Byte).length := by decide
/-- `ready` has both wires low, `high` both high, as after a frame. -/
def high (s : State) : State :=
  { s with clk := ⟨some pin7, some .output, some true⟩, data := ⟨some pin8, some .output, some true⟩ }
theorem witness_FirstFrameAfterInitHasNoStartEdge :
    (nextOf (exec (.init (some pin7) (some pin8)) State.reset)).isSome = true ∧
    ready.bound .clk = true ∧ ready.bound .data = true ∧ ready.wires = ⟨some false, some false⟩ ∧ allZero ready.lvl = true ∧
    lit5.wires = ⟨some false, some false⟩ ∧ allZero lit5.lvl = false ∧
    (high ready).bound .clk = true ∧ (high ready).bound .data = true ∧ (high ready).wires = ⟨some true, some true⟩ ∧
    (high lit5).wires = ⟨some true, some true⟩ ∧ 0 ≤ ([] : List Byte).length ∧ 2 ≤ ([0x80, 0x01] : List Byte).length := by
  decide
theorem witness_StopEdgeFollowsLastDataBit : ready.bound .clk = true ∧ ready.bound .data = true ∧
    lit5.bound .clk = true ∧ lit5.bound .data = true ∧ allZero lit5.lvl = false ∧ lit5.lvl.c4.getLsbD 5 = false ∧
    allZero (lit ⟨0, 0, 0, 0, 32⟩).lvl = false ∧ (lit ⟨0, 0, 0, 0, 32⟩).lvl.c4.getLsbD 5 = true ∧
    allZero ready.lvl = true := by decide
theorem witness_ModeSelection : allZero ⟨0, 0, 0, 0, 1⟩ = false ∧ allZero ⟨0, 1, 0, 0, 0⟩ = false ∧
    allZero ⟨1, 0, 0, 1, 0⟩ = false := by decide
theorem witness_FrameHeadOfEachMode : allZero ⟨0, 0, 0, 0, 1⟩ = false ∧ selectMode ⟨0, 0, 0, 0, 1⟩ = .mode2 ∧
    allZero ⟨0, 1, 0, 0, 0⟩ = false ∧ selectMode ⟨0, 1, 0, 0, 0⟩ = .mode3 ∧ allZero ⟨1, 0, 0, 1, 0⟩ = false ∧
    selectMode ⟨1, 0, 0, 1, 0⟩ = .mode5 := by decide
theorem witness_FlushResult : (∀ k, ready.lvl.get k = 0) ∧ (∃ k, lit5.lvl.get k ≠ 0) := by decide
theorem witness_FlushTraceGivesBackLevels : lit5.bound .clk = true ∧ lit5.bound .data = true ∧ allZero lit5.lvl = false := by
  decide
theorem witness_EveryFrameIsWellShaped : ready.bound .clk = true ∧ ready.bound .data = true ∧ allZero ready.lvl = true ∧
    lit5.bound .clk = true ∧ lit5.bound .data = true ∧ allZero lit5.lvl = false := by decide
theorem witness_ScaleIsFloorOfExactProduct : (0 : Rat) ≤ 0 ∧ (0 : Rat) ≤ 255 ∧ (255 : Rat) ≤ 255 := by decide
theorem witness_ScaleKeepsItsLaws : (0 : Rat) ≤ 1 ∧ (1 : Rat) ≤ 2 ∧ (2 : Rat) ≤ 255 ∧ (255 : Rat) ≤ 255 := by decide
theorem witness_CurrentTransform : (0 : Int) ≤ 0 ∧ (63 : Int) ≤ 221 ∧ ¬ (63 : Int) > 63 ∧ (64 : Int) > 63 ∧
    (221 : Int) ≤ 221 := by decide
theorem witness_WriteColorResult :
    (∀ k, 0 ≤ (⟨0, 255, 1, 2, 3⟩ : Five Rat).get k ∧ (⟨0, 255, 1, 2, 3⟩ : Five Rat).get k ≤ 255) ∧
    (∀ k, (⟨4, 0, 0, 3, 1⟩ : Five Int).get k = (((⟨4, 0, 0, 3, 1⟩ : Five (Fin 5)).get k).val : Int)) ∧
    ({ ready with remap := ⟨4, 0, 0, 3, 1⟩ } : State).remap = ⟨4, 0, 0, 3, 1⟩ := by decide
theorem witness_RawColorResult : ready.inited = true ∧
    hex5 ['F', 'F', '0', '0', '8', '0', 'a', '1', '0', '9'] = some ⟨255, 0, 128, 161, 9⟩ ∧
    (∀ k, ready.remap.get k = (((⟨0, 1, 2, 3, 4⟩ : Five (Fin 5)).get k).val : Int)) := by decide
theorem witness_SetRemapResult : ready.inited = true := by decide
theorem witness_SetCurrentResult : ready.inited = true ∧ (0 : Int) ≤ 0 ∧ (221 : Int) ≤ 221 ∧ ¬ (63 : Int) > 63 ∧
    (64 : Int) > 63 := by decide
theorem witness_PreInitResult : ready.bound .clk = true ∧ State.reset.bound .clk = false ∧ ready.bound .data = true ∧
    State.reset.bound .data = false := by decide
theorem witness_InitResult : ((none : Option PinId) = none) ∧ (some pin7 ≠ none) ∧
    (some pin7 ≠ some pin8) := by decide
theorem witness_InitLeavesKnownIdleBus : pin7 ≠ pin8 := by decide
theorem witness_RegisteredCommandsNeedInit : State.reset.inited = false := by decide
theorem witness_TooFewArgumentsChangeNothing : ready.inited = true ∧ ([] : List Str).length < 1 ∧
    ([0, 1, 2, 3] : List Int).length < 5 ∧ ([5] : List Int).length < 2 := by decide
theorem witness_ColorRefusals :
    ([] : List LevelInput).length ≠ 5 ∧
    (∃ x ∈ ([.rat 0, .rat 0, .rat 0, .rat 0, .nan] : List LevelInput), ¬ ∃ q : Rat, x = .rat q ∧ 0 ≤ q ∧ q ≤ 255) ∧
    (∃ x ∈ ([.rat 256, .rat 0, .rat 0, .rat 0, .rat 0] : List LevelInput), ¬ ∃ q : Rat, x = .rat q ∧ 0 ≤ q ∧ q ≤ 255) ∧
    (∀ x ∈ ([.rat 0, .rat 0, .rat 0, .rat 0, .rat 255] : List LevelInput), ∃ q : Rat, x = .rat q ∧ 0 ≤ q ∧ q ≤ 255) ∧
    (∃ k, (⟨0, 1, 2, 3, 5⟩ : Five Int).get k < 0 ∨ 4 < (⟨0, 1, 2, 3, 5⟩ : Five Int).get k) ∧
    (∃ k, (⟨-1, 1, 2, 3, 4⟩ : Five Int).get k < 0 ∨ 4 < (⟨-1, 1, 2, 3, 4⟩ : Five Int).get k) ∧
    ready.inited = true ∧ hex5 ['F', 'F'] = none ∧ hex5 ['0', '0', '0', '0', '0', '0', '0', '0', '0', '0'] ≠ none := by
  refine ⟨by decide, ⟨.nan, by simp, by simp⟩, ⟨.rat 256, by simp, ?_⟩, ?_, by decide, by decide, by decide, by decide, by decide⟩
  · rintro ⟨q, hq, -, h⟩
    injection hq with hq
    subst hq
    exact absurd h (by decide)
  · intro x hx
    simp only [List.mem_cons, List.not_mem_nil, or_false] at hx
    rcases hx with rfl | rfl | rfl | rfl | rfl <;> exact ⟨_, rfl, by decide, by decide⟩
theorem witness_ConfigurationRefusals : ready.inited = true ∧
    (∃ k, (⟨0, 1, 2, 3, 5⟩ : Five Int).get k < 0 ∨ 4 < (⟨0, 1, 2, 3, 5⟩ : Five Int).get k) ∧
    ((-1 : Int) < 0) ∧ ((221 : Int) < 222) ∧ ([1, 2] : List Byte).length < 3 := by decide
theorem witness_TraceOnlyGrows : (nextOf (step { ready with micro := some (0x85, .none) })).map (·.trace.length) = some 4 := by
  decide
theorem witness_ErrorsLeaveNoTrace :
    (nextOf (step { State.reset with inbox := [.command 0x05 (.ints [5])] })).map (·.results) =
      some (State.reset.results ++ [.notRegistered]) ∧ ResultCode.notRegistered ≠ .ok := by decide
theorem witness_OneResultPerCommand :
    ((nextOf (step { ready with inbox := [.command 0x01 (.pins none none)] })).map (·.commandIndex) = some 1) ∧
    ((nextOf (step { ready with inbox := [.remapStore ⟨0, 0, 0, 0, 0⟩ true] })).map (·.commandIndex) = some 0) ∧
    ((nextOf (step { ready with micro := some (0x86, .none) })).map (·.commandIndex) = some 0) := by decide
theorem witness_EachRegisterHasItsWriters :
    (nextOf (exec (.setRemap [4, 3, 2, 1, 0]) ready)).map (fun t => (t.remap, t.remapValid, t.results)) =
      some (⟨4, 3, 2, 1, 0⟩, true, [.ok]) := by decide
theorem witness_LineRegistersFollowTrace :
    (nextOf (exec .stop ready)).map (fun t => (t.clk.pin, t.clk.latch)) = some (ready.clk.pin, some true) := by decide
theorem witness_EveryStepKeepsWellBound : lit5.WellBound ∧
    (nextOf (step { lit5 with inbox := [.command 0x01 (.pins none none)] })).isSome = true := by
  refine ⟨⟨.inl (by decide), .inl (by decide), by decide, by decide, ?_, ?_⟩, by decide⟩ <;> exact fun h => absurd h (by decide)
theorem witness_HostStepsKeepBusIdle : lit5.WellBound ∧ lit5.BusIdle :=
  ⟨witness_EveryStepKeepsWellBound.1,
    ⟨fun _ => ⟨by decide, by decide⟩, fun _ => ⟨by decide, by decide⟩, fun _ _ => by decide, by decide⟩⟩
theorem witness_EveryRunFromResetEndsIdle :
    ∃ t, SafeRun 4 { State.reset with inbox := [.remapStore ⟨0, 1, 2, 3, 4⟩ true,
        .command 0x01 (.pins (some pin7) (some pin8)), .command 0x05 (.ints [5]), .command 0x06 .none] } t ∧
      t.trace.length = 8 ∧ t.results = [.ok, .notEnoughArgs, .unknownCommand] ∧
      t.clk = ⟨some pin7, some .output, some false⟩ :=
  ⟨_, rfl, by decide, by decide, by decide⟩
theorem witness_NoStepSelectsMicroOperation :
    (nextOf (step { ready with micro := some (0x86, .none) })).isSome = true := by decide
theorem witness_UnboundLineIsSilent : (∀ clk data, Instr.flush ≠ .init clk data) ∧ ((none : Option PinId) ≠ some pin7) ∧
    (some pin8 ≠ some pin7) ∧ (nextOf (exec .flush ready)).isSome = true := by
  exact ⟨fun _ _ h => (nomatch h), by decide, by decide, by decide⟩
theorem witness_PinNamesDoNotMatter : Function.Injective (Equiv.swap pin7 pin8) ∧ Equiv.swap pin7 pin8 pin7 = pin8 :=
  ⟨(Equiv.swap pin7 pin8).injective, Equiv.swap_apply_left pin7 pin8⟩

end Sys2Proof.Tests
end

section
/-! PROOF. TRACE only grows (10_state.md R31): the events emitted by an operation are appended at the end, and nothing else
writes TRACE. -/

namespace Sys2Proof.Machine

/-- Emitting a waveform only appends to TRACE. -/
theorem State.trace_prefix_drive (s : State) (es : List Event) : s.trace <+: (s.drive es).trace := by
  rw [State.drive_trace]
  exact List.prefix_append _ _

@[simp] theorem State.defaultRemap_trace (s : State) : s.defaultRemap.trace = s.trace := by rw [State.defaultRemap_eq]

/-- An operation only appends to TRACE: a case of `exec_next` either leaves it alone or emits one waveform. -/
theorem exec_trace_prefix {i : Instr} {s t : State} (h : exec i s = .next t) : s.trace <+: t.trace := by
  rcases exec_next h with ⟨-, es, rfl⟩ | ⟨-, c, -, rfl⟩ | ⟨-, x, rfl⟩ | ⟨-, -, r, rfl⟩ | ⟨-, -, x, y, -, -, rfl⟩ |
    ⟨clk, data, -, -, rfl⟩
  case inl => exact s.trace_prefix_drive es
  case inr.inl => exact List.prefix_rfl
  case inr.inr.inl => exact (s.setLvl x).trace_prefix_drive _
  case inr.inr.inr.inl => exact List.prefix_rfl
  case inr.inr.inr.inr.inl => exact (s.setCurrents (curXform x) (curXform y)).trace_prefix_drive _
  case inr.inr.inr.inr.inr =>
    simpa only [State.ret_trace, State.defaultRemap_trace, State.register_trace, State.rebind_trace] using
      ((s.rebind .clk clk).rebind .data data).trace_prefix_drive preInitWave

/-- A step only appends to TRACE: what it takes off `micro` or `inbox` is no part of TRACE, and beside running an operation it
waits, answers UNKNOWN_COMMAND or replaces the remap store. -/
theorem step_trace_prefix {s t : State} (h : step s = .next t) : s.trace <+: t.trace := by
  rcases step_next h with ⟨i, -, -, micro⟩ | ⟨-, -, rfl⟩ | ⟨-, w, a, rest, -, ⟨i, -, -, command⟩ | ⟨-, rfl⟩⟩ |
    ⟨-, r, valid, rest, -, rfl⟩
  · exact exec_trace_prefix (s := { s with micro := none }) micro
  · exact List.prefix_rfl
  · exact exec_trace_prefix (s := { s with inbox := rest }) command
  · exact List.prefix_rfl
  · exact List.prefix_rfl

/-- Settles O47, by the cases of `step_next` and `exec_next`; the reset state's TRACE is empty by definition. -/
theorem traceOnlyGrows : Obligations.TraceOnlyGrows :=
  ⟨fun _ _ => step_trace_prefix, rfl⟩

end Sys2Proof.Machine
end

section
/-! PROOF. The frame builder (42_channel_encoding.md R193, R198): which mode SELECT_MODE gives, and where BUILD_FRAME puts each
channel's two bytes. -/

namespace Sys2Proof.Machine

/-- PACK's low byte of channel j is byte 7 + 2j: seven head bytes and the pairs of the channels before it stand in front. -/
theorem buildFrame_getElem?_lo (L : Five UInt10) (rgb cw : Byte) (j : Fin 5) :
    (buildFrame L rgb cw)[7 + 2 * j.val]? = some (packLo (L.get j)) :=
  match j with
  | 0 | 1 | 2 | 3 | 4 => rfl

/-- PACK's high byte of channel j is byte 8 + 2j, next to its low byte. -/
theorem buildFrame_getElem?_hi (L : Five UInt10) (rgb cw : Byte) (j : Fin 5) :
    (buildFrame L rgb cw)[8 + 2 * j.val]? = some (packHi (L.get j)) :=
  match j with
  | 0 | 1 | 2 | 3 | 4 => rfl

/-- Settles O27: the two bytes are PACK's, whose numbers are `packLo_toNat` and `packHi_toNat`. -/
theorem dataBytesOfEachChannel : Obligations.DataBytesOfEachChannel :=
  fun L rgb cw j => ⟨packLo (L.get j), packHi (L.get j), buildFrame_getElem?_lo L rgb cw j, buildFrame_getElem?_hi L rgb cw j,
    rfl, rfl, packLo_toNat _, packHi_toNat _⟩

/-- ALL_ZERO (42_channel_encoding.md R191) fails exactly when one of the two groups of channels has a level that is not zero. -/
theorem allZero_eq_false_iff (L : Five UInt10) :
    allZero L = false ↔ (L.c0 ≠ 0 ∨ L.c1 ≠ 0 ∨ L.c2 ≠ 0) ∨ (L.c3 ≠ 0 ∨ L.c4 ≠ 0) := by
  simp only [allZero, Bool.and_eq_false_iff, beq_eq_false_iff_ne, or_assoc]

/-- MODE2 is SELECT_MODE's first condition (42_channel_encoding.md R193). -/
theorem selectMode_eq_mode2_iff (L : Five UInt10) :
    selectMode L = .mode2 ↔ (L.c0 = 0 ∧ L.c1 = 0 ∧ L.c2 = 0) ∧ (L.c3 ≠ 0 ∨ L.c4 ≠ 0) := by
  rw [and_assoc, and_assoc, selectMode]
  split
  case isTrue mode2 => exact iff_of_true rfl mode2
  case isFalse other => exact iff_of_false (by split <;> decide) other

/-- MODE3 is SELECT_MODE's second condition, which excludes the first: one asks that a channel of 0, 1 and 2 is lit, the other
that none is (42_channel_encoding.md R193). -/
theorem selectMode_eq_mode3_iff (L : Five UInt10) :
    selectMode L = .mode3 ↔ (L.c3 = 0 ∧ L.c4 = 0) ∧ (L.c0 ≠ 0 ∨ L.c1 ≠ 0 ∨ L.c2 ≠ 0) := by
  rw [and_assoc, selectMode]
  split
  case isTrue mode2 =>
    obtain ⟨h0, h1, h2, -⟩ := mode2
    exact iff_of_false (by decide) (by simp [h0, h1, h2])
  case isFalse =>
    split
    case isTrue mode3 => exact iff_of_true rfl mode3
    case isFalse other => exact iff_of_false (by decide) other

/-- MODE5 is what the other two modes leave: with a level that is not zero, both groups are lit exactly when neither mode's
condition holds. -/
theorem selectMode_eq_mode5_iff {L : Five UInt10} (h : allZero L = false) :
    selectMode L = .mode5 ↔ (L.c0 ≠ 0 ∨ L.c1 ≠ 0 ∨ L.c2 ≠ 0) ∧ (L.c3 ≠ 0 ∨ L.c4 ≠ 0) := by
  have neither : selectMode L = .mode5 ↔ ¬ selectMode L = .mode2 ∧ ¬ selectMode L = .mode3 := by
    cases selectMode L <;> decide
  rw [allZero_eq_false_iff] at h
  rw [neither, selectMode_eq_mode2_iff, selectMode_eq_mode3_iff]
  tauto

/-- Settles O25, one mode a lemma; only MODE5 needs a level that is not zero. -/
theorem modeSelection : Obligations.ModeSelection :=
  fun L h => ⟨selectMode_eq_mode2_iff L, selectMode_eq_mode3_iff L, selectMode_eq_mode5_iff h⟩

end Sys2Proof.Machine
end

section
/-! PROOF. CUR_XFORM (43_current_and_init.md R220): the two branches as numbers, and the codes it can produce. -/

namespace Sys2Proof.Machine

/-- Above 63 the code is 34 more than the input, at most 255, so nothing is lost in the byte. -/
theorem curXform_toNat_of_gt {x : Int} (h : 0 ≤ x ∧ x ≤ 221) (above : x > 63) : ((curXform x).toNat : Int) = x + 34 := by
  rw [curXform_toNat h, if_pos above]

theorem curXform_toNat_of_not_gt {x : Int} (h : 0 ≤ x ∧ x ≤ 221) (low : ¬ x > 63) : ((curXform x).toNat : Int) = x := by
  rw [curXform_toNat h, if_neg low]

/-- The codes 64..97 are never produced: an input above 63 gives at least 64 + 34. -/
theorem curXform_codeReachable {x : Int} (h : 0 ≤ x ∧ x ≤ 221) : CodeReachable (curXform x) := by
  unfold CodeReachable
  by_cases above : x > 63
  · right
    have code := curXform_toNat_of_gt h above
    omega
  · left
    have code := curXform_toNat_of_not_gt h above
    omega

/-- Settles O34, one branch of CUR_XFORM a lemma. -/
theorem currentTransform : Obligations.CurrentTransform :=
  fun _ h0 h221 => ⟨curXform_toNat_of_gt ⟨h0, h221⟩, curXform_toNat_of_not_gt ⟨h0, h221⟩, curXform_codeReachable ⟨h0, h221⟩⟩

end Sys2Proof.Machine
end

section
/-! PROOF. Decoder and encoder (30_encoding.md R80, R83): each port's decoder answers an operation exactly for the word and the
arguments that encode it. -/

namespace Sys2Proof.Machine

/-- Every operation's own encoding decodes to it, one row of the tables a case. -/
theorem decode_encode (i : Instr) : decode i.port i.opcode i.args = .ok i := by
  cases i <;> rfl

theorem word_of_code {w : Byte} {n : Nat} (code : w.toNat = n) : w = BitVec.ofNat 8 n := by
  rw [← code, BitVec.ofNat_toNat, BitVec.setWidth_eq]

/-- What the host's decoder answers has the opcode and the arguments it was given. -/
theorem encode_of_decodeHost {w : Byte} {a : Args} {i : Instr} (h : decodeHost w a = .ok i) :
    encode i = (.host, w, a) := by
  unfold decodeHost at h
  split at h
  all_goals cases h
  all_goals rename_i code; rw [word_of_code code]; rfl

theorem encode_of_decodeMicro {w : Byte} {a : Args} {i : Instr} (h : decodeMicro w a = .ok i) :
    encode i = (.micro, w, a) := by
  unfold decodeMicro at h
  split at h
  all_goals cases h
  all_goals rename_i code; rw [word_of_code code]; rfl

/-- Settles O2: one direction reads the decoder's rows, the other is `decode_encode`. -/
theorem decodeAgreesWithEncode : Obligations.DecodeAgreesWithEncode := by
  intro p w a i
  constructor
  · intro h
    cases p with
    | host => exact encode_of_decodeHost h
    | micro => exact encode_of_decodeMicro h
  · intro h
    obtain ⟨rfl, rfl, rfl⟩ : i.port = p ∧ i.opcode = w ∧ i.args = a := by simpa [encode] using h
    exact decode_encode i

end Sys2Proof.Machine
end

section
/-! PROOF. A bus monitor reads a waveform back (30_encoding.md R91 to R95): bit by bit, byte by byte, frame by frame, whatever
follows it. -/

namespace Sys2Proof.Machine

/-- Reading bit k after the bits above it leaves what x has from bit k on. -/
theorem div_two_pow_of_bit (x : Byte) (k : Nat) :
    2 * (x.toNat / 2 ^ (k + 1)) + (x.getLsbD k).toNat = x.toNat / 2 ^ k := by
  have bit : (x.getLsbD k).toNat = x.toNat / 2 ^ k % 2 := by
    rw [BitVec.getLsbD, Nat.testBit_eq_decide_div_mod_eq]
    rcases Nat.mod_two_eq_zero_or_one (x.toNat / 2 ^ k) with h | h <;> simp [h]
  rw [bit, Nat.pow_succ, ← Nat.div_div_eq_div_mul]
  exact Nat.div_add_mod _ 2

/-- The eight bits of a byte, most significant first, are the byte. -/
theorem byteOfBits_bits (x : Byte) :
    byteOfBits [x.getLsbD 7, x.getLsbD 6, x.getLsbD 5, x.getLsbD 4, x.getLsbD 3, x.getLsbD 2, x.getLsbD 1, x.getLsbD 0] =
      x := by
  have first := div_two_pow_of_bit x 7
  rw [show x.toNat / 2 ^ (7 + 1) = 0 from Nat.div_eq_of_lt x.isLt] at first
  simp only [byteOfBits, List.foldl_cons, List.foldl_nil, first, div_two_pow_of_bit x 6, div_two_pow_of_bit x 5,
    div_two_pow_of_bit x 4, div_two_pow_of_bit x 3, div_two_pow_of_bit x 2, div_two_pow_of_bit x 1, div_two_pow_of_bit x 0,
    pow_zero, Nat.div_one, BitVec.ofNat_toNat, BitVec.setWidth_eq]

/-- One bit's waveform read off the head of a trace. -/
theorem readBits_bitWave (n : Nat) (b : Level) (es : List Event) :
    readBits (n + 1) (bitWave b ++ es) = (readBits n es).map (fun r => (b :: r.1, r.2)) := rfl

theorem readByte_byteWave (x : Byte) (rest : List Event) :
    readByte (byteWave x ++ rest) = some (x, rest) := by
  simp only [readByte, byteWave, List.append_assoc, readBits_bitWave, readBits, Option.map_some, ackWave, List.cons_append,
    List.nil_append, byteOfBits_bits]

/-- The waveforms of a list of bytes are read back one after another. -/
theorem readBytes_bytes (xs : List Byte) (rest : List Event) :
    readBytes xs.length (xs.flatMap byteWave ++ rest) = some (xs, rest) := by
  induction xs with
  | nil => rfl
  | cons x xs ih =>
    simp only [List.length_cons, List.flatMap_cons, List.append_assoc, readBytes, readByte_byteWave, ih, Option.map_some]

/-- A frame's waveform is read back as its bytes and what follows it. -/
theorem readFrame_frameWave (xs : List Byte) (rest : List Event) :
    readFrame xs.length (frameWave xs ++ rest) = some (xs, rest) := by
  simp only [frameWave, startWave, stopWave, List.append_assoc, List.cons_append, List.nil_append, readFrame, readBytes_bytes]

/-- WRITE_BUFFER within its buffer's length completes with the frame's waveform (41_byte_frame_transport.md R152). -/
theorem exec_writeBuffer {bytes : List Byte} {count : Nat} (h : count ≤ bytes.length) (s : State) :
    exec (.writeBuffer bytes count) s = .next (s.drive (frameWave (bytes.take count))) := by
  rw [← writeBuffer_eq_drive]
  exact if_pos h

/-- FLUSH always completes, with its waveform (42_channel_encoding.md R190). -/
theorem exec_flush (s : State) : exec .flush s = .next (s.drive (flushWave s)) := by
  rw [← flush_eq_drive]; rfl

theorem flushWave_of_lit {s : State} (lit : allZero s.lvl = false) :
    flushWave s = frameWave (buildFrame s.lvl s.curRgb s.curCw) := by
  simp [flushWave, lit]

theorem flushWave_of_dark {s : State} (dark : allZero s.lvl = true) :
    flushWave s = frameWave (zeroFrame Config.addrOut) ++ frameWave (zeroFrame Config.addrSleep) := by
  simp [flushWave, dark]

/-- Settles O24: TRACE gains the frame's waveform, which `readFrame_frameWave` reads. -/
theorem waveformDeterminesBytes : Obligations.WaveformDeterminesBytes := by
  intro bytes count rest s within hc hd
  have len : (bytes.take count).length = count := List.length_take_of_le within
  have read := readFrame_frameWave (bytes.take count) rest
  rw [len] at read
  exact ⟨_, _, exec_writeBuffer within s, State.drive_trace_of_bound hc hd _, read⟩

/-- The two bytes of PACK give the level back (42_channel_encoding.md R199). -/
theorem unpack_pack (x : UInt10) : unpack (packLo x) (packHi x) = x := by
  apply BitVec.eq_of_toNat_eq
  have := x.isLt
  rw [unpack, BitVec.toNat_ofNat, packLo_toNat, packHi_toNat]
  omega

theorem frameLevels_buildFrame (L : Five UInt10) (rgb cw : Byte) : frameLevels (buildFrame L rgb cw) = some L := by
  simp only [buildFrame, dataBytes, Five.toList, List.flatMap_cons, List.flatMap_nil, List.cons_append, List.nil_append,
    frameLevels, unpack_pack]

/-- Settles O30: the monitor reads BUILD_FRAME's bytes, whose data bytes are PACK's. -/
theorem flushTraceGivesBackLevels : Obligations.FlushTraceGivesBackLevels := by
  intro s hc hd lit
  refine ⟨_, _, buildFrame s.lvl s.curRgb s.curCw, exec_flush s, State.drive_trace_of_bound hc hd _, ?_,
    frameLevels_buildFrame _ _ _⟩
  have read := readFrame_frameWave (buildFrame s.lvl s.curRgb s.curCw) []
  rwa [List.append_nil, buildFrame_length, ← flushWave_of_lit lit] at read

end Sys2Proof.Machine
end

section
/-! PROOF. Well bound and idle (10_state.md R24, R28, R35, 43_current_and_init.md R234): what each operation does to the two
invariants, then every step, then every run from reset. -/

namespace Sys2Proof.Machine

@[simp] theorem State.defaultRemap_lvl (s : State) : s.defaultRemap.lvl = s.lvl := by rw [State.defaultRemap_eq]
@[simp] theorem State.defaultRemap_curRgb (s : State) : s.defaultRemap.curRgb = s.curRgb := by rw [State.defaultRemap_eq]
@[simp] theorem State.defaultRemap_curCw (s : State) : s.defaultRemap.curCw = s.curCw := by rw [State.defaultRemap_eq]
@[simp] theorem State.defaultRemap_clk (s : State) : s.defaultRemap.clk = s.clk := by rw [State.defaultRemap_eq]
@[simp] theorem State.defaultRemap_data (s : State) : s.defaultRemap.data = s.data := by rw [State.defaultRemap_eq]
@[simp] theorem State.defaultRemap_inited (s : State) : s.defaultRemap.inited = s.inited := by rw [State.defaultRemap_eq]
@[simp] theorem State.defaultRemap_remap (s : State) :
    s.defaultRemap.remap = if s.remapValid then s.remap else identityRemap := by rw [State.defaultRemap_eq]
@[simp] theorem State.defaultRemap_remapValid (s : State) : s.defaultRemap.remapValid = true := by rw [State.defaultRemap_eq]
@[simp] theorem State.defaultRemap_results (s : State) : s.defaultRemap.results = s.results := by rw [State.defaultRemap_eq]
@[simp] theorem State.defaultRemap_inbox (s : State) : s.defaultRemap.inbox = s.inbox := by rw [State.defaultRemap_eq]
@[simp] theorem State.defaultRemap_micro (s : State) : s.defaultRemap.micro = s.micro := by rw [State.defaultRemap_eq]

/-- The state after an INIT that completes: both lines rebound, PRE_INIT run, registered, the default remap applied, OK
returned (43_current_and_init.md R232). -/
def State.afterInit (clk data : Option PinId) (s : State) : State :=
  ((((s.rebind .clk clk).rebind .data data).drive preInitWave).register.defaultRemap).ret .ok

/-- INIT completes unless both roles resolve to one pin. -/
theorem exec_init {clk data : Option PinId} (free : pinConflict clk data = false) (s : State) :
    exec (.init clk data) s = .next (s.afterInit clk data) := by
  rw [State.afterInit, ← preInit_eq_drive]
  simp [exec, execInit, free]

theorem exec_init_next {clk data : Option PinId} {s t : State} (h : exec (.init clk data) s = .next t) :
    pinConflict clk data = false ∧ t = s.afterInit clk data :=
  execInit_next h

/-- Being well bound is about the current codes, the two lines and INITED. -/
theorem State.WellBound.congr {s t : State} (h : s.WellBound) (rgb : t.curRgb = s.curRgb) (cw : t.curCw = s.curCw)
    (clk : t.clk = s.clk) (data : t.data = s.data) (inited : t.inited = s.inited) : t.WellBound := by
  obtain ⟨hrgb, hcw, hpins, hunbound, hclk, hdata⟩ := h
  exact ⟨rgb ▸ hrgb, cw ▸ hcw, clk ▸ data ▸ hpins, inited ▸ clk ▸ data ▸ hunbound, clk ▸ hclk, data ▸ hdata⟩

theorem State.WellBound.setCurrents {s : State} (h : s.WellBound) {rgb cw : Byte} (hrgb : CodeReachable rgb)
    (hcw : CodeReachable cw) : (s.setCurrents rgb cw).WellBound :=
  ⟨hrgb, hcw, h.pinsDistinct, h.unboundBeforeInit, h.clkUnknown, h.dataUnknown⟩

/-- Events write no register of an unbound line, so it stays unknown. -/
theorem LineState.unknownWhenUnbound_after {x : LineState} (h : x.unknownWhenUnbound) (l : Line) (es : List Event) :
    (x.after l es).unknownWhenUnbound := by
  intro unbound
  rw [LineState.after_pin] at unbound
  rw [LineState.after_of_unbound unbound]
  exact h unbound

theorem State.WellBound.drive {s : State} (h : s.WellBound) (es : List Event) : (s.drive es).WellBound where
  rgbReachable := h.rgbReachable
  cwReachable := h.cwReachable
  pinsDistinct := by simpa using h.pinsDistinct
  unboundBeforeInit := by simpa using h.unboundBeforeInit
  clkUnknown := LineState.unknownWhenUnbound_after h.clkUnknown _ _
  dataUnknown := LineState.unknownWhenUnbound_after h.dataUnknown _ _

/-- A rebound line is unknown when unbound: it keeps its registers or loses them. -/
theorem State.unknownWhenUnbound_rebind {s : State} {l : Line} (h : (s.line l).unknownWhenUnbound) (p : Option PinId) :
    ((s.rebind l p).line l).unknownWhenUnbound := by
  rw [State.rebind_line_same]
  split
  · exact h
  · exact fun _ => ⟨rfl, rfl⟩

theorem pinConflict_eq_false_iff {clk data : Option PinId} : pinConflict clk data = false ↔ (clk ≠ none → clk ≠ data) := by
  cases clk <;> simp [pinConflict]

/-- INIT leaves the block well bound: a conflict of the two pins is refused (43_current_and_init.md R232). -/
theorem State.WellBound.afterInit {s : State} (h : s.WellBound) {clk data : Option PinId}
    (free : pinConflict clk data = false) : (s.afterInit clk data).WellBound where
  rgbReachable := by simpa [State.afterInit] using h.rgbReachable
  cwReachable := by simpa [State.afterInit] using h.cwReachable
  pinsDistinct := by simpa [State.afterInit] using pinConflict_eq_false_iff.1 free
  unboundBeforeInit := by simp [State.afterInit]
  clkUnknown := by
    simpa [State.afterInit] using
      LineState.unknownWhenUnbound_after (State.unknownWhenUnbound_rebind (l := .clk) h.clkUnknown clk) .clk preInitWave
  dataUnknown := by
    simpa [State.afterInit] using
      LineState.unknownWhenUnbound_after (State.unknownWhenUnbound_rebind (s := s.rebind .clk clk) (l := .data)
        h.dataUnknown data) .data preInitWave

/-- Every operation that answers a next state keeps the block well bound. -/
theorem exec_keeps_wellBound {i : Instr} {s t : State} (h : exec i s = .next t) (hs : s.WellBound) : t.WellBound := by
  rcases exec_next h with ⟨-, es, rfl⟩ | ⟨-, c, -, rfl⟩ | ⟨-, x, rfl⟩ | ⟨-, -, r, rfl⟩ | ⟨-, -, x, y, hx, hy, rfl⟩ |
    ⟨clk, data, -, free, rfl⟩
  case inl => exact hs.drive es
  case inr.inl => exact hs.congr rfl rfl rfl rfl rfl
  case inr.inr.inl =>
    have written : (s.setLvl x).WellBound := hs.congr rfl rfl rfl rfl rfl
    exact (written.drive _).congr rfl rfl rfl rfl rfl
  case inr.inr.inr.inl => exact hs.congr rfl rfl rfl rfl rfl
  case inr.inr.inr.inr.inl =>
    have written := hs.setCurrents (curXform_codeReachable hx) (curXform_codeReachable hy)
    exact (written.drive _).congr rfl rfl rfl rfl rfl
  case inr.inr.inr.inr.inr => exact hs.afterInit free

/-- Settles O52: a step runs an operation (`exec_keeps_wellBound`) or leaves all that the invariant speaks of. -/
theorem everyStepKeepsWellBound : Obligations.EveryStepKeepsWellBound := by
  intro s t hs h
  rcases step_next h with ⟨i, -, -, micro⟩ | ⟨-, -, rfl⟩ | ⟨-, w, a, rest, -, ⟨i, -, -, command⟩ | ⟨-, rfl⟩⟩ |
    ⟨-, r, valid, rest, -, rfl⟩
  · exact exec_keeps_wellBound micro (hs.congr rfl rfl rfl rfl rfl)
  · exact hs
  · exact exec_keeps_wellBound command (hs.congr rfl rfl rfl rfl rfl)
  · exact hs.congr rfl rfl rfl rfl rfl
  · exact hs.congr rfl rfl rfl rfl rfl

/-- An idle bus is about the two lines and the selected micro-operation. -/
theorem State.BusIdle.congr {s t : State} (h : s.BusIdle) (clk : t.clk = s.clk) (data : t.data = s.data)
    (micro : t.micro = s.micro) : t.BusIdle := by
  obtain ⟨hclk, hdata, hsame, hmicro⟩ := h
  exact ⟨clk ▸ hclk, data ▸ hdata, clk ▸ data ▸ hsame, micro.trans hmicro⟩

/-- Events that leave both bound lines outputs and drive both to one last level leave an idle bus. -/
theorem State.busIdle_drive {s : State} {es : List Event} {v : Level} (micro : s.micro = none)
    (level : ∀ l, lastLevel l es = some v)
    (mode : ∀ l, (s.line l).pin ≠ none → (lastMode l es).or (s.line l).mode = some .output) : (s.drive es).BusIdle := by
  have latch (l : Line) (bound : (s.line l).pin ≠ none) : ((s.drive es).line l).latch = some v := by
    rw [State.drive_line, LineState.after_latch_of_bound bound, level, Option.some_or]
  have idle (l : Line) : ((s.drive es).line l).idleWhenBound := by
    intro bound
    rw [State.drive_line, LineState.after_pin] at bound
    refine ⟨?_, by rw [latch l bound]; exact Option.some_ne_none v⟩
    rw [State.drive_line, LineState.after_mode_of_bound bound, mode l bound]
  refine ⟨idle .clk, idle .data, fun hc hd => ?_, micro⟩
  rw [State.drive_clk, LineState.after_pin] at hc
  rw [State.drive_data, LineState.after_pin] at hd
  exact (latch .clk hc).trans (latch .data hd).symm

/-- FLUSH leaves the bus idle, both lines high: DATA's mode is set last by the acknowledgment, CLK's is kept
(41_byte_frame_transport.md R151 corner (b)). -/
theorem State.BusIdle.drive_flushWave {s : State} (h : s.BusIdle) (u : State) : (s.drive (flushWave u)).BusIdle := by
  refine State.busIdle_drive h.noMicro (fun l => lastLevel_flushWave l u) fun l bound => ?_
  cases l with
  | clk => rw [lastMode_flushWave_clk]; exact (h.clkIdle bound).1
  | data => rw [lastMode_flushWave_data, Option.some_or]

/-- INIT leaves the bus idle, both lines low, from any bus (43_current_and_init.md R234). -/
theorem State.busIdle_afterInit {s : State} (micro : s.micro = none) (clk data : Option PinId) :
    (s.afterInit clk data).BusIdle := by
  have driven : (((s.rebind .clk clk).rebind .data data).drive preInitWave).BusIdle :=
    State.busIdle_drive (by simpa using micro) lastLevel_preInitWave fun l _ => by rw [lastMode_preInitWave, Option.some_or]
  exact driven.congr (by simp [State.afterInit]) (by simp [State.afterInit]) (by simp [State.afterInit])

/-- Every host operation that answers a next state keeps the bus idle. -/
theorem exec_keeps_busIdle {i : Instr} {s t : State} (host : i.port = .host) (h : exec i s = .next t) (hs : s.BusIdle) :
    t.BusIdle := by
  rcases exec_next h with ⟨micro, -⟩ | ⟨-, c, -, rfl⟩ | ⟨-, x, rfl⟩ | ⟨-, -, r, rfl⟩ | ⟨-, -, x, y, -, -, rfl⟩ |
    ⟨clk, data, -, -, rfl⟩
  case inl => rw [host] at micro; cases micro
  case inr.inl => exact hs.congr rfl rfl rfl
  case inr.inr.inl =>
    have written : (s.setLvl x).BusIdle := hs.congr rfl rfl rfl
    exact (written.drive_flushWave _).congr rfl rfl rfl
  case inr.inr.inr.inl => exact hs.congr rfl rfl rfl
  case inr.inr.inr.inr.inl =>
    have written : (s.setCurrents (curXform x) (curXform y)).BusIdle := hs.congr rfl rfl rfl
    exact (written.drive_flushWave _).congr rfl rfl rfl
  case inr.inr.inr.inr.inr => exact State.busIdle_afterInit hs.noMicro clk data

/-- Settles O53: with no micro-operation selected a step runs a host operation (`exec_keeps_busIdle`) or leaves both lines. -/
theorem hostStepsKeepBusIdle : Obligations.HostStepsKeepBusIdle := by
  intro s t _ hs h
  rcases step_next h with ⟨i, -, selected, -⟩ | ⟨-, -, rfl⟩ | ⟨-, w, a, rest, -, ⟨i, -, host, command⟩ | ⟨-, rfl⟩⟩ |
    ⟨-, r, valid, rest, -, rfl⟩
  · exact absurd hs.noMicro selected
  · exact hs
  · exact exec_keeps_busIdle host command (hs.congr rfl rfl rfl)
  · exact hs.congr rfl rfl rfl
  · exact hs.congr rfl rfl rfl

/-- Settles O54: the reset code is 14, and both lines are unbound with nothing known of them. -/
theorem resetIsWellBoundAndIdle : Obligations.ResetIsWellBoundAndIdle :=
  ⟨⟨.inl (by decide), .inl (by decide), fun bound => absurd rfl bound, fun _ => ⟨rfl, rfl⟩, fun _ => ⟨rfl, rfl⟩,
      fun _ => ⟨rfl, rfl⟩⟩,
    ⟨fun bound => absurd rfl bound, fun bound => absurd rfl bound, fun bound => absurd rfl bound, rfl⟩⟩

/-- Settles O55: both invariants hold at reset, whatever the moves to come, and every step keeps them. -/
theorem everyRunFromResetEndsIdle : Obligations.EveryRunFromResetEndsIdle := by
  intro moves n t run
  obtain ⟨bound, idle⟩ := resetIsWellBoundAndIdle
  refine SafeRun.keeps (P := fun s => s.WellBound ∧ s.BusIdle) ?_ run
    ⟨bound.congr rfl rfl rfl rfl rfl, idle.congr rfl rfl rfl⟩
  rintro s t ⟨hb, hi⟩ h
  exact ⟨everyStepKeepsWellBound s t hb h, hostStepsKeepBusIdle s t hb hi h⟩

end Sys2Proof.Machine
end

section
/-! PROOF. Results and registers: what an operation and a step return (60_exceptions.md R260, R266), and which operation writes
which register (10_state.md R38). -/

namespace Sys2Proof.Machine

/-- A micro-operation returns no result; a host operation returns OK, or one error code with nothing else changed. -/
theorem exec_results {i : Instr} {s t : State} (h : exec i s = .next t) :
    (i.port = .micro ∧ t.results = s.results) ∨ (i.port = .host ∧ t.results = s.results ++ [.ok]) ∨
      (i.port = .host ∧ ∃ c, (c = .notRegistered ∨ c = .notEnoughArgs) ∧ t = s.ret c) := by
  rcases exec_next h with ⟨micro, es, rfl⟩ | ⟨host, c, hc, rfl⟩ | ⟨⟨vs, rfl⟩ | ⟨-, args, rfl⟩, x, rfl⟩ |
    ⟨-, ⟨args, rfl⟩, r, rfl⟩ | ⟨-, ⟨args, rfl⟩, x, y, -, -, rfl⟩ | ⟨clk, data, rfl, -, rfl⟩
  · exact .inl ⟨micro, rfl⟩
  · exact .inr (.inr ⟨host, c, hc, rfl⟩)
  all_goals exact .inr (.inl ⟨rfl, by simp⟩)

/-- No operation touches the host's moves or the selected micro-operation. -/
theorem exec_keeps_issue {i : Instr} {s t : State} (h : exec i s = .next t) : t.inbox = s.inbox ∧ t.micro = s.micro := by
  rcases exec_next h with ⟨-, es, rfl⟩ | ⟨-, c, -, rfl⟩ | ⟨-, x, rfl⟩ | ⟨-, -, r, rfl⟩ | ⟨-, -, x, y, -, -, rfl⟩ |
    ⟨clk, data, -, -, rfl⟩
  case inr.inr.inr.inr.inr => simp
  all_goals exact ⟨rfl, rfl⟩

/-- What a host operation returns: OK, or an error code and no other change; never UNKNOWN_COMMAND. -/
theorem exec_host_results {i : Instr} {s t : State} (host : i.port = .host) (h : exec i s = .next t) :
    t.results = s.results ++ [.ok] ∨ ∃ c, (c = .notRegistered ∨ c = .notEnoughArgs) ∧ t = s.ret c := by
  rcases exec_results h with ⟨micro, -⟩ | ⟨-, ok⟩ | ⟨-, error⟩
  · rw [host] at micro; cases micro
  · exact .inl ok
  · exact .inr error

/-- What a host command returns: OK, or an error code and no other change. -/
theorem runCommand_results {w : Byte} {a : Args} {s t : State} (h : runCommand w a s = .next t) :
    t.results = s.results ++ [.ok] ∨ ∃ c, c ≠ .ok ∧ t = s.ret c := by
  rcases runCommand_next h with ⟨i, -, host, command⟩ | ⟨-, rfl⟩
  · rcases exec_host_results host command with ok | ⟨c, rfl | rfl, rfl⟩
    · exact .inl ok
    · exact .inr ⟨_, by decide, rfl⟩
    · exact .inr ⟨_, by decide, rfl⟩
  · exact .inr ⟨_, by decide, rfl⟩

theorem runCommand_keeps_inbox {w : Byte} {a : Args} {s t : State} (h : runCommand w a s = .next t) :
    t.inbox = s.inbox := by
  rcases runCommand_next h with ⟨i, -, -, command⟩ | ⟨-, rfl⟩
  · exact (exec_keeps_issue command).1
  · rfl

/-- Whatever a step does when no host command is next, it returns no result. -/
theorem step_results_of_no_command {s t : State} (h : step s = .next t)
    (none : s.micro ≠ none ∨ ∀ w a rest, s.inbox ≠ .command w a :: rest) : t.results = s.results := by
  rcases step_next h with ⟨i, port, -, micro⟩ | ⟨-, -, rfl⟩ | ⟨free, w, a, rest, next, -⟩ | ⟨-, r, valid, rest, -, rfl⟩
  · rcases exec_results micro with ⟨-, kept⟩ | ⟨host, -⟩ | ⟨host, -⟩
    · exact kept
    · rw [port] at host; cases host
    · rw [port] at host; cases host
  · rfl
  · rcases none with selected | other
    · exact absurd free selected
    · exact absurd next (other w a rest)
  · rfl

/-- A step that returns a result ran the host's next command. -/
theorem step_command_of_result {s t : State} {c : ResultCode} (h : step s = .next t) (result : t.results = s.results ++ [c]) :
    ∃ w a rest, s.micro = none ∧ s.inbox = .command w a :: rest := by
  by_contra other
  have kept : t.results = s.results := by
    refine step_results_of_no_command h ?_
    by_cases free : s.micro = none
    · exact .inr fun w a rest next => other ⟨w, a, rest, free, next⟩
    · exact .inl free
  simp [kept] at result

/-- Settles O48: an error code other than OK comes from `State.ret` alone, at the state with the command taken off. -/
theorem errorsLeaveNoTrace : Obligations.ErrorsLeaveNoTrace := by
  intro s t c h result notOk
  obtain ⟨w, a, rest, free, next⟩ := step_command_of_result h result
  rw [step_command free next] at h
  rcases runCommand_results h with ok | ⟨c', -, rfl⟩
  · rw [ok] at result
    have same : ResultCode.ok = c := by simpa using result
    exact absurd same.symm notOk
  · rfl

/-- Settles O49. -/
theorem oneResultPerCommand : Obligations.OneResultPerCommand := by
  intro s t h
  refine ⟨fun w a rest free next => ?_, step_results_of_no_command h⟩
  rw [step_command free next] at h
  have result : ∃ c, t.results = s.results ++ [c] := by
    rcases runCommand_results h with ok | ⟨c, -, rfl⟩
    · exact ⟨_, ok⟩
    · exact ⟨c, rfl⟩
  refine ⟨runCommand_keeps_inbox h, result, ?_⟩
  obtain ⟨c, hc⟩ := result
  rw [State.commandIndex, State.commandIndex, hc, List.length_append, List.length_singleton]

/-- Settles O56: a step clears the selection before it runs an operation, and no operation sets it. -/
theorem noStepSelectsMicroOperation : Obligations.NoStepSelectsMicroOperation := by
  intro s t h
  rcases step_next h with ⟨i, -, -, micro⟩ | ⟨free, -, rfl⟩ | ⟨free, w, a, rest, -, ⟨i, -, -, command⟩ | ⟨-, rfl⟩⟩ |
    ⟨free, r, valid, rest, -, rfl⟩
  · exact (exec_keeps_issue micro).2
  · exact free
  · exact (exec_keeps_issue command).2.trans free
  · exact free
  · exact free

/-- The host's decoder knows no opcode but 0x01 to 0x05 (30_encoding.md R84). -/
theorem decodeHost_eq_unknown_iff {w : Byte} {a : Args} :
    decode .host w a = .error .unknownCommand ↔ w.toNat < 0x01 ∨ 0x05 < w.toNat := by
  simp only [decode, decodeHost]
  split <;> simp_all
  omega

/-- Settles O3: the decoder's unknown opcodes are those outside the table, and a known operation returns another code. -/
theorem unknownOpcodeReturnsUnknownCommand : Obligations.UnknownOpcodeReturnsUnknownCommand := by
  intro s w a rest free next
  rw [step_command free next]
  constructor
  · intro unknown
    simp [runCommand, decodeHost_eq_unknown_iff.2 unknown, State.ret]
  · intro known t h result
    rcases runCommand_next h with ⟨i, -, host, command⟩ | ⟨unknown, -⟩
    · rcases exec_host_results host command with ok | ⟨c, rfl | rfl, rfl⟩
      · rw [ok] at result; simp at result
      · simp at result
      · simp at result
    · exact known (decodeHost_eq_unknown_iff.1 unknown)

/-- Settles O50, one case of `exec_next` at a time. -/
theorem eachRegisterHasItsWriters : Obligations.EachRegisterHasItsWriters := by
  intro i s t h
  rcases exec_next h with ⟨micro, es, rfl⟩ | ⟨host, c, -, rfl⟩ | ⟨⟨vs, rfl⟩ | ⟨-, args, rfl⟩, x, rfl⟩ |
    ⟨-, ⟨args, rfl⟩, r, rfl⟩ | ⟨-, ⟨args, rfl⟩, x, y, -, -, rfl⟩ | ⟨clk, data, rfl, -, rfl⟩
  case inl =>
    have other (args : List Int) : i ≠ .setRemap args := by rintro rfl; cases micro
    simp [other]
  case inr.inl => simp [host]
  all_goals simp [Instr.port]

/-- Leaving out events that a reading of the list passes over does not change the reading. -/
theorem filterMap_filter_shows {α : Type} {s : State} {f : Event → Option α} (hidden : ∀ e, s.shows e = false → f e = none)
    {es : List Event} : (es.filter s.shows).filterMap f = es.filterMap f := by
  rw [List.filterMap_filter]
  refine List.filterMap_congr fun e _ => ?_
  split
  · rfl
  · rename_i h; exact (hidden e (Bool.eq_false_iff.2 h)).symm

/-- An event that is not shown is on an unbound line, so it drives no bound one. -/
theorem State.levelOn_of_hidden {s : State} {l : Line} (bound : s.bound l = true) (e : Event) (hidden : s.shows e = false) :
    e.levelOn l = none := by
  rcases e with ⟨k, v⟩ | ⟨k, m⟩ | _
  · rw [State.shows_level] at hidden
    exact if_neg fun same => by rw [same, bound] at hidden; cases hidden
  · rfl
  · rfl

theorem State.modeOn_of_hidden {s : State} {l : Line} (bound : s.bound l = true) (e : Event) (hidden : s.shows e = false) :
    e.modeOn l = none := by
  rcases e with ⟨k, v⟩ | ⟨k, m⟩ | _
  · rfl
  · rw [State.shows_mode] at hidden
    exact if_neg fun same => by rw [same, bound] at hidden; cases hidden
  · rfl

/-- The events of a line's own stand in TRACE when it is bound, and an unbound line has no registers to write: the registers
follow what TRACE shows. -/
theorem State.line_after_filter_shows (s : State) (l : Line) (es : List Event) :
    (s.line l).after l (es.filter s.shows) = (s.line l).after l es := by
  by_cases bound : s.bound l = true
  case neg =>
    have unbound : (s.line l).pin = none := by simpa [State.bound] using bound
    rw [LineState.after_of_unbound unbound, LineState.after_of_unbound unbound]
  case pos =>
    have levels := filterMap_filter_shows (es := es) (State.levelOn_of_hidden bound)
    have modes := filterMap_filter_shows (es := es) (State.modeOn_of_hidden bound)
    simp only [LineState.after, lastLevel, lastMode, levels, modes]

/-- From s to t a list of events was appended, and each line that keeps its pin has the registers they leave. -/
def State.Follows (s t : State) : Prop :=
  ∃ es, t.trace = s.trace ++ es ∧ ∀ l, (t.line l).pin = (s.line l).pin → t.line l = (s.line l).after l es

theorem State.follows_drive (s : State) (es : List Event) : s.Follows (s.drive es) :=
  ⟨es.filter s.shows, rfl, fun l _ => by rw [State.drive_line, State.line_after_filter_shows]⟩

/-- Without an event and with both lines kept there is nothing to follow. -/
theorem State.follows_of_lines_kept {s t : State} (trace : t.trace = s.trace) (lines : ∀ l, t.line l = s.line l) :
    s.Follows t :=
  ⟨[], by simp [trace], fun l _ => by rw [lines, LineState.after_nil]⟩

/-- A line that keeps its pin is not changed by rebinding, so INIT's PRE_INIT is all it follows. -/
theorem State.follows_afterInit (s : State) (clk data : Option PinId) : s.Follows (s.afterInit clk data) := by
  refine ⟨preInitWave.filter ((s.rebind .clk clk).rebind .data data).shows, by simp [State.afterInit], fun l kept => ?_⟩
  have rebound : ((s.rebind .clk clk).rebind .data data).line l = s.line l := by
    cases l with
    | clk =>
      have pin : s.clk.pin = clk := by simpa [State.afterInit] using kept.symm
      simp [State.rebind_clk_clk, pin]
    | data =>
      have pin : s.data.pin = data := by simpa [State.afterInit] using kept.symm
      simp [State.rebind_data_data, pin]
  rw [← rebound, State.line_after_filter_shows]
  cases l <;> simp [State.afterInit]

/-- Settles O51, one case of `exec_next` at a time. -/
theorem lineRegistersFollowTrace : Obligations.LineRegistersFollowTrace := by
  intro i s t h
  change s.Follows t
  rcases exec_next h with ⟨-, es, rfl⟩ | ⟨-, c, -, rfl⟩ | ⟨-, x, rfl⟩ | ⟨-, -, r, rfl⟩ | ⟨-, -, x, y, -, -, rfl⟩ |
    ⟨clk, data, -, -, rfl⟩
  case inl => exact s.follows_drive es
  case inr.inl => exact State.follows_of_lines_kept rfl (s.ret_line c)
  case inr.inr.inl => exact (s.setLvl x).follows_drive _
  case inr.inr.inr.inl => exact State.follows_of_lines_kept rfl fun l => by cases l <;> rfl
  case inr.inr.inr.inr.inl => exact (s.setCurrents (curXform x) (curXform y)).follows_drive _
  case inr.inr.inr.inr.inr => exact s.follows_afterInit clk data

end Sys2Proof.Machine
end

section
/-! PROOF. Maps of the state that touch a line's binding and nothing an operation decides on: every operation but INIT, which
writes the bindings, commutes with them. The silent line and the renaming of pins are two such maps. -/

namespace Sys2Proof.Machine

/-- A map of the state that commutes with every update an operation makes to a block whose bindings it does not change, and
keeps the registers an operation reads. -/
structure BlockMap (g : State → State) : Prop where
  drive : ∀ es s, (g s).drive es = g (s.drive es)
  ret : ∀ r s, (g s).ret r = g (s.ret r)
  setLvl : ∀ x s, (g s).setLvl x = g (s.setLvl x)
  setCurrents : ∀ rgb cw s, (g s).setCurrents rgb cw = g (s.setCurrents rgb cw)
  configureRemap : ∀ r s, (g s).configureRemap r = g (s.configureRemap r)
  register : ∀ s, (g s).register = g s.register
  lvl : ∀ s, (g s).lvl = s.lvl
  curRgb : ∀ s, (g s).curRgb = s.curRgb
  curCw : ∀ s, (g s).curCw = s.curCw
  inited : ∀ s, (g s).inited = s.inited
  remap : ∀ s, (g s).remap = s.remap
  remapValid : ∀ s, (g s).remapValid = s.remapValid

@[simp] theorem mapNext_next (f : State → State) (t : State) : mapNext f (.next t) = .next (f t) := rfl

@[simp] theorem mapNext_refused (f : State → State) (r : Refusal) : mapNext f (.refused r) = .refused r := rfl

namespace BlockMap

variable {g : State → State}

theorem flush_comm (hg : BlockMap g) (s : State) : flush (g s) = g (flush s) := by
  have wave : flushWave (g s) = flushWave s := by simp only [flushWave, hg.lvl, hg.curRgb, hg.curCw]
  rw [flush_eq_drive, flush_eq_drive, wave, hg.drive]

theorem colorWrite_comm (hg : BlockMap g) (vs : Five LevelInput) (s : State) :
    colorWrite vs (g s) = mapNext g (colorWrite vs s) := by
  unfold colorWrite
  rw [hg.remap]
  split
  · rfl
  · split
    · rfl
    · rw [mapNext_next, hg.setLvl, hg.flush_comm, hg.ret]

theorem whenRegistered_comm (hg : BlockMap g) {α : Type} (operands : Option α) (s : State)
    {run run' : α → Host.Outcome State Fault Refusal} (runs : ∀ x, run' x = mapNext g (run x)) :
    whenRegistered (g s) operands run' = mapNext g (whenRegistered s operands run) := by
  unfold whenRegistered
  rw [hg.inited]
  split
  · split
    · rw [mapNext_next, hg.ret]
    · exact runs _
  · rw [mapNext_next, hg.ret]

/-- An operation that emits a waveform commutes, whatever the waveform. -/
theorem next_drive (hg : BlockMap g) {op : State → State} {es : List Event} (emits : ∀ s, op s = s.drive es) (s : State) :
    Host.Outcome.next (φ := Fault) (ρ := Refusal) (op (g s)) = mapNext g (.next (op s)) := by
  rw [mapNext_next, emits, emits, hg.drive]

/-- Every operation but INIT commutes. -/
theorem exec_comm (hg : BlockMap g) {i : Instr} (notInit : ∀ clk data, i ≠ .init clk data) (s : State) :
    exec i (g s) = mapNext g (exec i s) := by
  cases i with
  | init clk data => exact absurd rfl (notInit clk data)
  | writeColor vs =>
    change execWriteColor vs (g s) = mapNext g (execWriteColor vs s)
    unfold execWriteColor
    split
    · rfl
    · exact hg.colorWrite_comm _ s
  | rawColor args =>
    refine hg.whenRegistered_comm (firstOne args) s fun str => ?_
    split
    · rfl
    · exact hg.colorWrite_comm _ s
  | setRemap args =>
    refine hg.whenRegistered_comm (firstFive args) s fun r => ?_
    split
    · rfl
    · rw [mapNext_next, hg.configureRemap, hg.ret]
  | setCurrent args =>
    refine hg.whenRegistered_comm (firstTwo args) s fun x => ?_
    split
    · rw [mapNext_next, hg.setCurrents, hg.flush_comm, hg.ret]
    · rfl
  | setLine l v => exact hg.next_drive (setLine_eq_drive l v) s
  | setMode l m => exact hg.next_drive (setMode_eq_drive l m) s
  | writeBit b => exact hg.next_drive (writeBit_eq_drive b) s
  | ackCycle => exact hg.next_drive ackCycle_eq_drive s
  | writeByte x => exact hg.next_drive (writeByte_eq_drive x) s
  | start => exact hg.next_drive start_eq_drive s
  | stop => exact hg.next_drive stop_eq_drive s
  | writeBuffer bytes count =>
    change execWriteBuffer bytes count (g s) = mapNext g (execWriteBuffer bytes count s)
    unfold execWriteBuffer
    split
    · exact hg.next_drive (writeBuffer_eq_drive bytes count) s
    · rfl
  | flush => exact congrArg Host.Outcome.next (hg.flush_comm s)
  | preInit => exact hg.next_drive preInit_eq_drive s

/-- INIT commutes as far as its rebinding does. -/
theorem afterInit_comm (hg : BlockMap g) {s : State} {clk data clk' data' : Option PinId}
    (rebound : ((g s).rebind .clk clk').rebind .data data' = g ((s.rebind .clk clk).rebind .data data)) :
    (g s).afterInit clk' data' = g (s.afterInit clk data) := by
  have remapped (u : State) : (g u).defaultRemap = g u.defaultRemap := by
    unfold State.defaultRemap
    rw [hg.remapValid]
    split
    · rfl
    · exact hg.configureRemap _ u
  rw [State.afterInit, rebound, hg.drive, hg.register, remapped, hg.ret]; rfl

end BlockMap

/-! ### The silent line (70_reset_and_hazards.md R300) -/

@[simp] theorem State.silence_results (l : Line) (s : State) : (s.silence l).results = s.results := by
  simp [State.silence]

theorem State.silence_bound (l k : Line) (s : State) : (s.silence l).bound k = (s.bound k && decide (k ≠ l)) := by
  by_cases same : k = l
  · subst same
    cases k <;> exact (Bool.and_false _).symm
  · have kept : (s.silence l).line k = s.line k := s.withLine_line_other same ⟨none, none, none⟩
    simp [State.bound, kept, same]

/-- A line never bound shows none of its events; every other event shows as before. -/
theorem State.silence_shows (l : Line) (s : State) (e : Event) :
    (s.silence l).shows e = (s.shows e && decide (e.line? ≠ some l)) := by
  rcases e with ⟨k, v⟩ | ⟨k, m⟩ | _
  · simp [State.silence_bound, Event.line?]
  · simp [State.silence_bound, Event.line?]
  · rfl

theorem State.silence_drive (l : Line) (es : List Event) (s : State) : (s.silence l).drive es = (s.drive es).silence l := by
  have shown : es.filter (s.silence l).shows = (es.filter s.shows).filter (fun e => e.line? ≠ some l) := by
    rw [List.filter_filter]
    exact List.filter_congr fun e _ => by rw [State.silence_shows, Bool.and_comm]
  have trace : ((s.silence l).drive es).trace = ((s.drive es).silence l).trace := by
    rw [State.drive_trace, shown]
    simp [State.silence, List.filter_append]
  cases l <;> exact State.ext_fields rfl rfl rfl rfl rfl rfl rfl rfl trace rfl rfl rfl

theorem silence_blockMap (l : Line) : BlockMap (State.silence l) where
  drive := State.silence_drive l
  ret _ _ := by cases l <;> rfl
  setLvl _ _ := by cases l <;> rfl
  setCurrents _ _ _ := by cases l <;> rfl
  configureRemap _ _ := by cases l <;> rfl
  register _ := by cases l <;> rfl
  lvl _ := by cases l <;> rfl
  curRgb _ := by cases l <;> rfl
  curCw _ := by cases l <;> rfl
  inited _ := by cases l <;> rfl
  remap _ := by cases l <;> rfl
  remapValid _ := by cases l <;> rfl

/-- Resolving a role to no pin leaves a line that was never bound as it is. -/
theorem State.silence_rebind_none (l : Line) (s : State) : (s.silence l).rebind l none = s.silence l := by
  cases l <;> rfl

/-- What a line was rebound to is gone once it is silent. -/
theorem State.rebind_silence (l : Line) (p : Option PinId) (s : State) : (s.rebind l p).silence l = s.silence l := by
  cases l <;> rfl

theorem State.silence_rebind_other {l k : Line} (other : k ≠ l) (p : Option PinId) (s : State) :
    (s.silence l).rebind k p = (s.rebind k p).silence l := by
  match l, k, other with
  | .clk, .data, _ | .data, .clk, _ => rfl
  | .clk, .clk, other | .data, .data, other => exact absurd rfl other

/-- INIT with the CLK role unresolved, at the block that never had CLK, is INIT with it resolved, less that line. -/
theorem State.silence_afterInit_clk (s : State) (p data : Option PinId) :
    (s.silence .clk).afterInit none data = (s.afterInit p data).silence .clk := by
  refine (silence_blockMap .clk).afterInit_comm ?_
  rw [State.silence_rebind_none, ← State.silence_rebind_other (by decide), State.rebind_silence]

theorem State.silence_afterInit_data (s : State) (clk p : Option PinId) :
    (s.silence .data).afterInit clk none = (s.afterInit clk p).silence .data := by
  refine (silence_blockMap .data).afterInit_comm ?_
  rw [State.silence_rebind_other (by decide), State.silence_rebind_none, State.rebind_silence]

@[simp] theorem State.afterInit_results (s : State) (clk data : Option PinId) :
    (s.afterInit clk data).results = s.results ++ [.ok] := by
  simp [State.afterInit]

/-- Settles O57: silencing a line is a `BlockMap`, and INIT completes with OK whatever is bound. -/
theorem unboundLineIsSilent : Obligations.UnboundLineIsSilent := by
  refine ⟨fun i s l notInit => (silence_blockMap l).exec_comm notInit s, fun s p data differ => ?_, fun s p clk differ => ?_,
    fun i s t l h => ?_⟩
  · have free : pinConflict (some p) data = false := pinConflict_eq_false_iff.2 fun _ => differ.symm
    rw [exec_init free, exec_init (pinConflict_eq_false_iff.2 fun bound => absurd rfl bound), mapNext_next,
      s.silence_afterInit_clk (some p)]
  · have free : pinConflict clk (some p) = false := pinConflict_eq_false_iff.2 fun _ => differ
    rw [exec_init free, exec_init (pinConflict_eq_false_iff.2 fun bound => bound), mapNext_next,
      s.silence_afterInit_data clk (some p)]
  · by_cases init : ∃ clk data, i = .init clk data
    · obtain ⟨clk, data, rfl⟩ := init
      obtain ⟨free, rfl⟩ := exec_init_next h
      refine ⟨_, exec_init free (s.silence l), ?_⟩
      rw [State.afterInit_results, State.silence_results]
      exact (s.afterInit_results clk data).symm
    · have notInit (clk data : Option PinId) : i ≠ .init clk data := fun same => init ⟨clk, data, same⟩
      refine ⟨t.silence l, ?_, t.silence_results l⟩
      rw [(silence_blockMap l).exec_comm notInit, h, mapNext_next]

end Sys2Proof.Machine
end

section
/-! PROOF. Pin names (00_scope.md R9, 60_exceptions.md R273): a renaming of pins goes through the decoder, is a map of the state
that every operation but INIT commutes with, and INIT compares pins by equality alone. -/

namespace Sys2Proof

/-- A renaming of pin identifiers in an operation: INIT alone has any. -/
def Instr.renamePins (f : PinId → PinId) (i : Instr) : Instr :=
  match i with
  | .init clk data => .init (clk.map f) (data.map f)
  | .writeColor vs => .writeColor vs
  | .rawColor args => .rawColor args
  | .setRemap args => .setRemap args
  | .setCurrent args => .setCurrent args
  | .setLine l v => .setLine l v
  | .setMode l m => .setMode l m
  | .writeBit b => .writeBit b
  | .ackCycle => .ackCycle
  | .writeByte x => .writeByte x
  | .start => .start
  | .stop => .stop
  | .writeBuffer bytes count => .writeBuffer bytes count
  | .flush => .flush
  | .preInit => .preInit

end Sys2Proof

namespace Sys2Proof.Machine

variable (f : PinId → PinId)

/-- An operation other than INIT has no pin to rename. -/
theorem renamePins_of_not_init {i : Instr} (notInit : ∀ clk data, i ≠ .init clk data) : i.renamePins f = i := by
  cases i with
  | init clk data => exact absurd rfl (notInit clk data)
  | _ => rfl

theorem decodeHost_renamePins (w : Byte) (a : Args) :
    decodeHost w (Args.renamePins f a) = (decodeHost w a).map (Instr.renamePins f) := by
  unfold decodeHost
  generalize w.toNat = n
  match n with
  | 0 | 1 | 2 | 3 | 4 | 5 | _ + 6 => cases a <;> rfl
/-- No micro-operation takes pins, so the micro decoder rejects them alike. -/
theorem decodeMicro_pins (w : Byte) (clk data clk' data' : Option PinId) :
    decodeMicro w (.pins clk data) = decodeMicro w (.pins clk' data') := by
  unfold decodeMicro
  split <;> simp_all

theorem decodeMicro_renamePins (w : Byte) (a : Args) :
    decodeMicro w (Args.renamePins f a) = (decodeMicro w a).map (Instr.renamePins f) := by
  have other {e : Except DecodeReject Instr} (notInit : ∀ clk data, e ≠ .ok (.init clk data)) :
      e.map (Instr.renamePins f) = e := by
    rcases e with r | i
    · rfl
    · exact congrArg Except.ok (renamePins_of_not_init f fun clk data same => notInit clk data (congrArg Except.ok same))
  have noInit (clk data : Option PinId) : decodeMicro w a ≠ .ok (.init clk data) := fun h => by
    cases decode_port (p := .micro) h
  rw [other noInit]
  cases a with
  | pins clk data => exact decodeMicro_pins w _ _ _ _
  | _ => rfl

/-- The decoder passes the pins through and looks at none. -/
theorem decode_renamePins (p : Port) (w : Byte) (a : Args) :
    decode p w (Args.renamePins f a) = (decode p w a).map (Instr.renamePins f) := by
  cases p with
  | host => exact decodeHost_renamePins f w a
  | micro => exact decodeMicro_renamePins f w a

theorem State.renamePins_drive (es : List Event) (s : State) : (s.renamePins f).drive es = (s.drive es).renamePins f := by
  have shown : (s.renamePins f).shows = s.shows := by
    funext e
    rcases e with ⟨_ | _, v⟩ | ⟨_ | _, m⟩ | _ <;> simp [State.bound, State.renamePins]
  have line (x : LineState) (l : Line) :
      LineState.after { x with pin := x.pin.map f } l es = { x.after l es with pin := (x.after l es).pin.map f } := by
    rcases x with ⟨_ | p, m, v⟩ <;> rfl
  have trace : ((s.renamePins f).drive es).trace = ((s.drive es).renamePins f).trace := by
    rw [State.drive_trace, shown]; rfl
  exact State.ext_fields rfl rfl rfl (line s.clk .clk) (line s.data .data) rfl rfl rfl trace rfl rfl rfl

theorem renamePins_blockMap : BlockMap (State.renamePins f) where
  drive := State.renamePins_drive f
  ret _ _ := rfl
  setLvl _ _ := rfl
  setCurrents _ _ _ := rfl
  configureRemap _ _ := rfl
  register _ := rfl
  lvl _ := rfl
  curRgb _ := rfl
  curCw _ := rfl
  inited _ := rfl
  remap _ := rfl
  remapValid _ := rfl

section Injective

variable {f : PinId → PinId} (inj : Function.Injective f)

include inj

/-- Two answers name one pin exactly when their renamings do. -/
theorem pinConflict_map (clk data : Option PinId) : pinConflict (clk.map f) (data.map f) = pinConflict clk data := by
  rw [Bool.eq_iff_iff]
  simp [pinConflict, (Option.map_injective inj).eq_iff]

/-- Rebinding asks only whether the new pin is the old one. -/
theorem State.renamePins_rebind (l : Line) (p : Option PinId) (s : State) :
    (s.renamePins f).rebind l (p.map f) = (s.rebind l p).renamePins f := by
  have same (q : Option PinId) : q.map f = p.map f ↔ q = p := (Option.map_injective inj).eq_iff
  cases l with
  | clk =>
    by_cases h : s.clk.pin = p <;> simp [State.rebind, State.renamePins, State.withLine, State.line, same, h]
  | data =>
    by_cases h : s.data.pin = p <;> simp [State.rebind, State.renamePins, State.withLine, State.line, same, h]

/-- Executing a renamed operation at a renamed state. -/
theorem exec_renamePins (i : Instr) (s : State) :
    exec (i.renamePins f) (s.renamePins f) = mapNext (State.renamePins f) (exec i s) := by
  by_cases init : ∃ clk data, i = .init clk data
  · obtain ⟨clk, data, rfl⟩ := init
    cases free : pinConflict clk data with
    | true => simp [exec, execInit, Instr.renamePins, pinConflict_map inj, free]
    | false =>
      rw [exec_init free, mapNext_next, Instr.renamePins, exec_init (by rw [pinConflict_map inj, free])]
      refine congrArg Host.Outcome.next ((renamePins_blockMap f).afterInit_comm ?_)
      rw [State.renamePins_rebind inj, State.renamePins_rebind inj]
  · have notInit (clk data : Option PinId) : i ≠ .init clk data := fun same => init ⟨clk, data, same⟩
    rw [renamePins_of_not_init f notInit, (renamePins_blockMap f).exec_comm notInit]

theorem runCommand_renamePins (w : Byte) (a : Args) (s : State) :
    runCommand w (Args.renamePins f a) (s.renamePins f) = mapNext (State.renamePins f) (runCommand w a s) := by
  unfold runCommand
  rw [decode_renamePins]
  rcases decode .host w a with (_ | _ | _) | i
  · rfl
  · rfl
  · rfl
  · exact exec_renamePins inj i s

theorem runMicro_renamePins (w : Byte) (a : Args) (s : State) :
    runMicro w (Args.renamePins f a) (s.renamePins f) = mapNext (State.renamePins f) (runMicro w a s) := by
  unfold runMicro
  rw [decode_renamePins]
  rcases decode .micro w a with (_ | _ | _) | i
  · rfl
  · rfl
  · rfl
  · exact exec_renamePins inj i s

/-- A step of the renamed state is the renamed step, one case for each thing a step can find to do. -/
theorem step_renamePins (s : State) : step (s.renamePins f) = mapNext (State.renamePins f) (step s) := by
  rcases micro : s.micro with _ | ⟨w, a⟩
  · have micro' : (s.renamePins f).micro = none := by simp [State.renamePins, micro]
    rcases inbox : s.inbox with _ | ⟨⟨w, a⟩ | ⟨r, valid⟩, rest⟩
    · rw [step_idle micro inbox, step_idle micro' (by simp [State.renamePins, inbox]), mapNext_next]
    · rw [step_command micro inbox, ← runCommand_renamePins inj]
      exact step_command micro' (by simp [State.renamePins, inbox, HostMove.renamePins])
    · rw [step_remapStore micro inbox, mapNext_next]
      exact step_remapStore (r := r) (valid := valid) (rest := rest.map (HostMove.renamePins f)) micro'
        (by simp [State.renamePins, inbox, HostMove.renamePins])
  · rw [step_micro micro, ← runMicro_renamePins inj]
    exact step_micro (by simp [State.renamePins, micro])

end Injective

/-- Settles O58. -/
theorem pinNamesDoNotMatter : Obligations.PinNamesDoNotMatter :=
  fun _ s inj => step_renamePins inj s

end Sys2Proof.Machine
end

section
/-! PROOF. Results of the transport operations and of FLUSH (40_bit_transport.md, 41_byte_frame_transport.md,
42_channel_encoding.md R190, 43_current_and_init.md R230): the waveform each emits, and the registers it leaves. -/

namespace Sys2Proof.Machine

/-- A bound line's registers after a waveform: the last mode and the last level in it. -/
theorem State.drive_latch {s : State} {l : Line} (bound : s.bound l = true) (es : List Event) :
    ((s.drive es).line l).latch = (lastLevel l es).or (s.line l).latch := by
  rw [State.drive_line, LineState.after_latch_of_bound (State.bound_iff_pin.1 bound)]

theorem State.drive_mode {s : State} {l : Line} (bound : s.bound l = true) (es : List Event) :
    ((s.drive es).line l).mode = (lastMode l es).or (s.line l).mode := by
  rw [State.drive_line, LineState.after_mode_of_bound (State.bound_iff_pin.1 bound)]

theorem State.drive_line_of_unbound {s : State} {l : Line} (unbound : s.bound l = false) (es : List Event) :
    (s.drive es).line l = s.line l := by
  rw [State.drive_line, LineState.after_of_unbound (by simpa [State.bound] using unbound)]

/-- Settles O10. -/
theorem setLineResult : Obligations.SetLineResult := by
  refine fun l v s => ⟨fun bound => ?_, fun unbound => ?_⟩
  · simp only [exec, execSetLine, setLine, bound, if_true]
    cases l <;> simp [State.emit, State.setLatch, State.withLine, State.line]
  · simp [exec, execSetLine, setLine, unbound, State.emit]

/-- Settles O11. -/
theorem setModeResult : Obligations.SetModeResult := by
  refine fun l m s => ⟨fun bound => ?_, fun unbound => ?_⟩
  · simp only [exec, execSetMode, setMode, bound, if_true]
    cases l <;> rfl
  · simp [exec, execSetMode, setMode, unbound]

/-- Settles O12: with both lines unbound a waveform leaves its settles alone. -/
theorem writeBitResult : Obligations.WriteBitResult := by
  intro b s
  have drives : exec (.writeBit b) s = .next (s.drive (bitWave b)) := congrArg Host.Outcome.next (writeBit_eq_drive b s)
  refine ⟨drives, fun hc hd => ?_⟩
  rw [drives]
  refine congrArg Host.Outcome.next (State.ext_fields rfl rfl rfl (s.drive_line_of_unbound hc _) (s.drive_line_of_unbound hd _)
    rfl rfl rfl ?_ rfl rfl rfl)
  rw [State.drive_trace]
  simp [bitWave, List.filter_cons, hc, hd]

/-- Settles O13. -/
theorem padLevelFollowsModeAndLatch : Obligations.PadLevelFollowsModeAndLatch := by
  refine fun s l look => ⟨fun h => ?_, fun h => ?_, fun h => ?_⟩ <;> simp only [State.padLevel, h]

/-- Settles O14. -/
theorem ackCycleResult : Obligations.AckCycleResult := by
  refine fun s => ⟨_, congrArg Host.Outcome.next (ackCycle_eq_drive s), rfl, ?_, fun hd => ?_, fun hc => ?_⟩
  · exact LineState.after_latch_untouched (lastLevel_ackWave .data)
  · exact s.drive_mode hd ackWave
  · exact s.drive_latch hc ackWave

/-- Settles O15. -/
theorem writeByteResult : Obligations.WriteByteResult := by
  intro x s
  refine ⟨_, congrArg Host.Outcome.next (writeByte_eq_drive x s), ?_, fun hd => ⟨?_, ?_⟩, fun hc => ?_⟩
  · simp only [byteWave, List.flatMap_cons, List.flatMap_nil, List.append_assoc, List.nil_append]
  · simpa using s.drive_latch hd (byteWave x)
  · simpa using s.drive_mode hd (byteWave x)
  · simpa using s.drive_latch hc (byteWave x)

/-- Settles O16. -/
theorem startResult : Obligations.StartResult := by
  refine fun s => ⟨_, congrArg Host.Outcome.next (start_eq_drive s), rfl, ?_, ?_, fun l bound => ?_⟩
  · exact LineState.after_mode_untouched (lastMode_startWave .clk)
  · exact LineState.after_mode_untouched (lastMode_startWave .data)
  · rw [State.drive_latch bound, lastLevel_startWave, Option.some_or]

/-- Settles O17. -/
theorem stopResult : Obligations.StopResult := by
  refine fun s => ⟨_, congrArg Host.Outcome.next (stop_eq_drive s), rfl, ?_, ?_, fun l bound => ?_⟩
  · exact LineState.after_mode_untouched (lastMode_stopWave .clk)
  · exact LineState.after_mode_untouched (lastMode_stopWave .data)
  · rw [State.drive_latch bound, lastLevel_stopWave, Option.some_or]

/-- Settles O18. -/
theorem writeBufferResult : Obligations.WriteBufferResult :=
  fun _ _ s within => exec_writeBuffer within s

/-- Settles O40. -/
theorem preInitResult : Obligations.PreInitResult := by
  refine fun s => ⟨_, congrArg Host.Outcome.next (preInit_eq_drive s), rfl, fun l bound => ⟨?_, ?_⟩, fun l unbound => ?_⟩
  · rw [State.drive_mode bound, lastMode_preInitWave, Option.some_or]
  · rw [State.drive_latch bound, lastLevel_preInitWave, Option.some_or]
  · exact State.drive_line_of_unbound unbound _

/-- ALL_ZERO (42_channel_encoding.md R191) over the five channels. -/
theorem allZero_iff {L : Five UInt10} : allZero L = true ↔ ∀ k, L.get k = 0 := by
  rw [Five.forall_fin]
  simp [allZero, Five.get, and_assoc]

/-- Settles O29: the two paths of FLUSH's waveform. -/
theorem flushResult : Obligations.FlushResult := by
  refine fun s => ⟨fun zero => ?_, fun ⟨k, lit⟩ => ?_⟩
  · rw [exec_flush, flushWave_of_dark (allZero_iff.2 zero)]; rfl
  · have notZero : allZero s.lvl = false := Bool.eq_false_iff.2 fun zero => lit (allZero_iff.1 zero k)
    rw [exec_flush, flushWave_of_lit notZero]

/-- Both data bytes of a channel are below 32 (42_channel_encoding.md R199). -/
theorem packLo_lt (x : UInt10) : (packLo x).toNat < 32 := by
  rw [packLo_toNat]; exact Nat.mod_lt _ (by decide)

theorem packHi_lt (x : UInt10) : (packHi x).toNat < 32 := by
  have := x.isLt
  rw [packHi_toNat]; omega

theorem dataBytes_lt {L : Five UInt10} {b : Byte} (h : b ∈ dataBytes L) : b.toNat < 32 := by
  obtain ⟨x, -, hb⟩ := List.mem_flatMap.1 h
  rcases List.mem_pair.1 hb with rfl | rfl
  · exact packLo_lt x
  · exact packHi_lt x

/-- A frame's shape (30_encoding.md R95 to R97): 17 bytes, data bytes below 32, and one of the four chip addresses. -/
def WellShaped (f : List Byte) : Prop :=
  f.length = 17 ∧ (∀ x ∈ f.drop 7, x.toNat < 32) ∧
    ∃ a, f.head? = some a ∧ (a = Config.addrOut ∨ a = Config.addrOut3ch ∨ a = Config.addrOut2ch ∨ a = Config.addrSleep)

theorem frameAddr_mem (m : FrameMode) : frameAddr m = Config.addrOut ∨ frameAddr m = Config.addrOut3ch ∨
    frameAddr m = Config.addrOut2ch ∨ frameAddr m = Config.addrSleep := by
  cases m <;> simp [frameAddr]

theorem wellShaped_buildFrame (L : Five UInt10) (rgb cw : Byte) : WellShaped (buildFrame L rgb cw) :=
  ⟨rfl, fun _ h => dataBytes_lt h, _, rfl, frameAddr_mem (selectMode L)⟩

theorem wellShaped_zeroFrame {addr : Byte} (h : addr = Config.addrOut ∨ addr = Config.addrSleep) :
    WellShaped (zeroFrame addr) := by
  refine ⟨rfl, fun x hx => ?_, addr, rfl, by tauto⟩
  have zero : x = 0 := List.eq_of_mem_replicate (List.mem_of_mem_drop (i := 6) hx)
  rw [zero]; decide

/-- The 17-byte frame at the head of a trace, and what follows it. -/
theorem readFrame_17 {f : List Byte} (len : f.length = 17) (rest : List Event) :
    readFrame 17 (frameWave f ++ rest) = some (f, rest) := by
  rw [← len]; exact readFrame_frameWave f rest

/-- Settles O31: the frames the monitor reads are those of FLUSH's two paths. -/
theorem everyFrameIsWellShaped : Obligations.EveryFrameIsWellShaped := by
  intro s hc hd
  cases zero : allZero s.lvl with
  | true =>
    refine ⟨_, _, [zeroFrame Config.addrOut, zeroFrame Config.addrSleep], exec_flush s, State.drive_trace_of_bound hc hd _, ?_,
      fun f hf => ?_⟩
    · have second := readFrame_17 (zeroFrame_length Config.addrSleep) []
      rw [List.append_nil] at second
      rw [if_pos rfl, flushWave_of_dark zero, readFrames_succ (readFrame_17 (zeroFrame_length _) _) 1, readFrames_succ second 0]
      rfl
    · rcases List.mem_pair.1 hf with rfl | rfl
      · exact wellShaped_zeroFrame (.inl rfl)
      · exact wellShaped_zeroFrame (.inr rfl)
  | false =>
    refine ⟨_, _, [buildFrame s.lvl s.curRgb s.curCw], exec_flush s, State.drive_trace_of_bound hc hd _, ?_, fun f hf => ?_⟩
    · have only := readFrame_17 (buildFrame_length s.lvl s.curRgb s.curCw) []
      rw [List.append_nil] at only
      rw [if_neg (by decide), flushWave_of_lit zero, readFrames_succ only 0]
      rfl
    · rw [List.mem_singleton.1 hf]
      exact wellShaped_buildFrame _ _ _

/-- Settles O28. -/
theorem packRoundTrips : Obligations.PackRoundTrips := by
  intro x
  refine ⟨packLo_lt x, packHi_lt x, ?_⟩
  rw [Nat.mod_eq_of_lt (packLo_lt x), Nat.mod_eq_of_lt (packHi_lt x), packLo_toNat, packHi_toNat]
  exact Nat.mod_add_div _ _

/-- Settles O26, one mode at a time. -/
theorem frameHeadOfEachMode : Obligations.FrameHeadOfEachMode := by
  refine fun L rgb cw _ => ⟨rfl, fun mode => ?_, fun mode => ?_, fun mode => ?_⟩ <;>
    simp [buildFrame, mode, frameAddr, frameEnable, rgbByte, cwByte]

end Sys2Proof.Machine
end

section
/-! PROOF. Event counts (41_byte_frame_transport.md R154, 70_reset_and_hazards.md R304): the counts of each waveform, and from
them those of each operation. -/

namespace Sys2Proof.Machine

/-- How many level, mode and settle events a list holds. -/
def HasCounts (es : List Event) (levels modes settles : Nat) : Prop :=
  levelCount es = levels ∧ modeCount es = modes ∧ settleCount es = settles

theorem HasCounts.append {a b : List Event} {l m k l' m' k' : Nat} (ha : HasCounts a l m k) (hb : HasCounts b l' m' k') :
    HasCounts (a ++ b) (l + l') (m + m') (k + k') := by
  obtain ⟨hl, hm, hk⟩ := ha
  obtain ⟨hl', hm', hk'⟩ := hb
  exact ⟨by rw [levelCount_append, hl, hl'], by rw [modeCount_append, hm, hm'], by rw [settleCount_append, hk, hk']⟩

/-- Every event is a level, a mode or a settle. -/
theorem HasCounts.length {es : List Event} {l m k : Nat} (h : HasCounts es l m k) : es.length = l + m + k := by
  have total (es : List Event) : es.length = levelCount es + modeCount es + settleCount es := by
    induction es with
    | nil => rfl
    | cons e es ih =>
      have one : levelCount [e] + modeCount [e] + settleCount [e] = 1 := by
        rcases e with ⟨_ | _, v⟩ | ⟨_ | _, v⟩ | _ <;> rfl
      rw [← List.singleton_append, levelCount_append, modeCount_append, settleCount_append, List.length_append,
        List.length_singleton, ih]
      omega
  obtain ⟨rfl, rfl, rfl⟩ := h
  exact total es

theorem bitWave_counts (b : Level) : HasCounts (bitWave b) 3 0 3 := ⟨rfl, rfl, rfl⟩

theorem ackWave_counts : HasCounts ackWave 2 2 2 := ⟨rfl, rfl, rfl⟩

theorem startWave_counts : HasCounts startWave 2 0 2 := ⟨rfl, rfl, rfl⟩

theorem stopWave_counts : HasCounts stopWave 2 0 2 := ⟨rfl, rfl, rfl⟩

theorem preInitWave_counts : HasCounts preInitWave 2 2 4 := ⟨rfl, rfl, rfl⟩

/-- Eight bits and an acknowledgment. -/
theorem byteWave_counts (x : Byte) : HasCounts (byteWave x) 26 2 26 :=
  (((((((((bitWave_counts _).append (bitWave_counts _)).append (bitWave_counts _)).append (bitWave_counts _)).append
    (bitWave_counts _)).append (bitWave_counts _)).append (bitWave_counts _)).append (bitWave_counts _)).append
    ackWave_counts)

theorem bytes_counts (xs : List Byte) :
    HasCounts (xs.flatMap byteWave) (26 * xs.length) (2 * xs.length) (26 * xs.length) := by
  induction xs with
  | nil => exact ⟨rfl, rfl, rfl⟩
  | cons x xs ih =>
    have both := (byteWave_counts x).append ih
    rwa [Nat.add_comm 26, Nat.add_comm 2, ← Nat.mul_succ, ← Nat.mul_succ] at both

/-- One frame of n bytes has 26 n + 4 level events and settles and 2 n mode events (41_byte_frame_transport.md R154). -/
theorem frameWave_counts (xs : List Byte) :
    HasCounts (frameWave xs) (26 * xs.length + 4) (2 * xs.length) (26 * xs.length + 4) := by
  have h := (startWave_counts.append (bytes_counts xs)).append stopWave_counts
  have four (n : Nat) : 2 + n + 2 = n + 4 := by omega
  rwa [Nat.zero_add, Nat.add_zero, four] at h

theorem flushWave_counts_of_dark {s : State} (dark : allZero s.lvl = true) : HasCounts (flushWave s) 892 68 892 := by
  rw [flushWave_of_dark dark]
  exact (frameWave_counts (zeroFrame Config.addrOut)).append (frameWave_counts (zeroFrame Config.addrSleep))

theorem flushWave_counts_of_lit {s : State} (lit : allZero s.lvl = false) : HasCounts (flushWave s) 446 34 446 := by
  rw [flushWave_of_lit lit]
  exact frameWave_counts (buildFrame s.lvl s.curRgb s.curCw)

/-- An unbound line leaves out its own events alone, so every settle stands in TRACE (40_bit_transport.md R121). -/
theorem State.settleCount_filter_shows (s : State) (es : List Event) : settleCount (es.filter s.shows) = settleCount es := by
  simp only [settleCount, List.countP_filter]
  refine List.countP_congr fun e _ => ?_
  cases e <;> simp

theorem tSettle_pos : 0 < Config.tSettle := by
  have num : (0 : Rat) < (Config.settleNum : Rat) + 1 := by positivity
  have den : (0 : Rat) < (Config.settleDen : Rat) + 1 := by positivity
  exact div_pos num den

/-- Settles O19: the settles are those of the whole waveform, and with both lines bound the whole waveform stands in TRACE. -/
theorem frameEventCounts : Obligations.FrameEventCounts := by
  refine ⟨tSettle_pos, fun bytes count s within => ?_⟩
  have counts := frameWave_counts (bytes.take count)
  rw [List.length_take_of_le within] at counts
  have settles : settleCount ((frameWave (bytes.take count)).filter s.shows) = 26 * count + 4 := by
    rw [State.settleCount_filter_shows, counts.2.2]
  refine ⟨_, _, exec_writeBuffer within s, s.drive_trace _, settles, by rw [leastDuration, settles], fun hc hd => ?_⟩
  have whole := State.drive_trace_of_bound hc hd (frameWave (bytes.take count))
  rw [State.drive_trace, List.append_cancel_left_eq] at whole
  rw [whole]
  exact ⟨by rw [counts.length]; omega, counts.1, counts.2.1⟩

/-- A trace that gained a list of events gained its counts. -/
theorem State.emits_of_trace {s t : State} {es : List Event} {l m k : Nat} (trace : t.trace = s.trace ++ es)
    (counts : HasCounts es l m k) : s.Emits t l m k :=
  ⟨es, trace, counts.1, counts.2.1, counts.2.2, counts.length⟩

theorem State.emits_none {s t : State} (trace : t.trace = s.trace) : s.Emits t 0 0 0 :=
  State.emits_of_trace (es := []) (by rw [trace, List.append_nil]) ⟨rfl, rfl, rfl⟩

/-- A FLUSH at a state u whose trace is s's, both lines bound, with u's levels in the end (R304's two rows of FLUSH). -/
theorem State.emitsFlush_of_drive {s t u : State} (hc : u.bound .clk = true) (hd : u.bound .data = true)
    (before : u.trace = s.trace) (trace : t.trace = (u.drive (flushWave u)).trace) (lvl : t.lvl = u.lvl) :
    s.EmitsFlush t := by
  rw [State.drive_trace_of_bound hc hd, before] at trace
  refine ⟨fun dark => State.emits_of_trace trace ?_, fun lit => State.emits_of_trace trace ?_⟩
  · exact flushWave_counts_of_dark (lvl ▸ dark)
  · exact flushWave_counts_of_lit (lvl ▸ lit)

/-- A registered command that returned OK did not stop at its gate. -/
theorem whenRegistered_ok {α : Type} {s t : State} {operands : Option α} {run : α → Host.Outcome State Fault Refusal}
    (h : whenRegistered s operands run = .next t) (ok : t.results = s.results ++ [.ok]) : ∃ x, run x = .next t := by
  rcases whenRegistered_next h with ⟨c, rfl | rfl, rfl⟩ | ⟨-, x, -, ran⟩
  · simp at ok
  · simp at ok
  · exact ⟨x, ran⟩

section Bound

variable {s t : State} (hc : s.bound .clk = true) (hd : s.bound .data = true)

include hc hd

/-- An operation that emits a waveform emits its counts. -/
theorem State.emits_of_next {op : State → State} {es : List Event} {l m k : Nat} (emits : ∀ s, op s = s.drive es)
    (counts : HasCounts es l m k) (h : Host.Outcome.next (φ := Fault) (ρ := Refusal) (op s) = .next t) :
    s.Emits t l m k := by
  injection h with h
  rw [← h, emits]
  exact State.emits_of_trace (State.drive_trace_of_bound hc hd es) counts

theorem colorWrite_emitsFlush {vs : Five LevelInput} (h : colorWrite vs s = .next t) : s.EmitsFlush t := by
  obtain ⟨v, r, -, -, rfl⟩ := colorWrite_next h
  exact State.emitsFlush_of_drive (u := s.setLvl (gather v r)) (by simpa using hc) (by simpa using hd) rfl rfl rfl

theorem writeColor_emitsFlush {vs : List LevelInput} (h : exec (.writeColor vs) s = .next t) : s.EmitsFlush t := by
  change execWriteColor vs s = .next t at h
  unfold execWriteColor at h
  split at h
  · cases h
  · exact colorWrite_emitsFlush hc hd h

theorem rawColor_emitsFlush {args : List Str} (h : exec (.rawColor args) s = .next t) (ok : t.results = s.results ++ [.ok]) :
    s.EmitsFlush t := by
  obtain ⟨str, ran⟩ := whenRegistered_ok h ok
  split at ran
  · cases ran
  · exact colorWrite_emitsFlush hc hd ran

theorem setCurrent_emitsFlush {args : List Int} (h : exec (.setCurrent args) s = .next t)
    (ok : t.results = s.results ++ [.ok]) : s.EmitsFlush t := by
  obtain ⟨x, ran⟩ := whenRegistered_ok h ok
  split at ran
  · injection ran with ran
    subst ran
    rw [flush_eq_drive]
    exact State.emitsFlush_of_drive (u := s.setCurrents (curXform x.1) (curXform x.2)) (by simpa using hc) (by simpa using hd)
      rfl rfl rfl
  · cases ran

theorem writeBuffer_emits {bytes : List Byte} (h : exec (.writeBuffer bytes 17) s = .next t) : s.Emits t 446 34 446 := by
  change execWriteBuffer bytes 17 s = .next t at h
  unfold execWriteBuffer at h
  split at h
  · rename_i within
    have counts := frameWave_counts (bytes.take 17)
    rw [List.length_take_of_le within] at counts
    exact State.emits_of_next hc hd (writeBuffer_eq_drive bytes 17) counts h
  · cases h

theorem flush_emitsFlush (h : exec .flush s = .next t) : s.EmitsFlush t := by
  rw [exec_flush] at h
  injection h with h
  subst h
  exact State.emitsFlush_of_drive hc hd rfl rfl rfl

end Bound

/-- INIT with both roles resolved appends the whole of PRE_INIT's waveform, whatever was bound. -/
theorem State.afterInit_trace (s : State) (p q : PinId) :
    (s.afterInit (some p) (some q)).trace = s.trace ++ preInitWave := by
  have clk : ((s.rebind .clk (some p)).rebind .data (some q)).bound .clk = true := by simp [State.bound]
  have data : ((s.rebind .clk (some p)).rebind .data (some q)).bound .data = true := by simp [State.bound]
  have driven := State.drive_trace_of_bound clk data preInitWave
  rw [State.rebind_trace, State.rebind_trace] at driven
  rw [← driven, State.afterInit, State.ret_trace, State.defaultRemap_trace, State.register_trace]

theorem State.SameBlock.trace {s t : State} (h : s.SameBlock t) : t.trace = s.trace := by
  unfold State.SameBlock at h
  rw [h]

/-- Settles O20, a row of the table at a time. -/
theorem eventCountsOfEachOperation : Obligations.EventCountsOfEachOperation := by
  refine ⟨fun s hc hd => ⟨?_, ?_, ?_, ?_, ?_, ?_, ?_, ?_, ?_, ?_, ?_, ?_, ?_⟩, ?_, ?_, ?_⟩
  · exact fun l v t => State.emits_of_next hc hd (setLine_eq_drive l v) (by cases l <;> exact ⟨rfl, rfl, rfl⟩)
  · exact fun l m t => State.emits_of_next hc hd (setMode_eq_drive l m) (by cases l <;> exact ⟨rfl, rfl, rfl⟩)
  · exact fun b t => State.emits_of_next hc hd (writeBit_eq_drive b) (bitWave_counts b)
  · exact fun t => State.emits_of_next hc hd ackCycle_eq_drive ackWave_counts
  · exact fun x t => State.emits_of_next hc hd (writeByte_eq_drive x) (byteWave_counts x)
  · exact fun t => State.emits_of_next hc hd start_eq_drive startWave_counts
  · exact fun t => State.emits_of_next hc hd stop_eq_drive stopWave_counts
  · exact fun bytes t => writeBuffer_emits hc hd
  · exact fun t => State.emits_of_next hc hd preInit_eq_drive preInitWave_counts
  · exact fun t => flush_emitsFlush hc hd
  · exact fun vs t => writeColor_emitsFlush hc hd
  · exact fun args t => rawColor_emitsFlush hc hd
  · exact fun args t => setCurrent_emitsFlush hc hd
  · intro s t p q h
    obtain ⟨-, rfl⟩ := exec_init_next h
    exact State.emits_of_trace (s.afterInit_trace p q) preInitWave_counts
  · intro s t args h
    obtain ⟨-, -, -, -, -, kept, -⟩ := eachRegisterHasItsWriters _ s t h
    exact State.emits_none (by_contra fun changed => kept (.inl changed) args rfl)
  · intro s t c h result notOk
    exact State.emits_none (errorsLeaveNoTrace s t c h result notOk).trace

end Sys2Proof.Machine
end

section
/-! PROOF. The line discipline and the edges of a frame (41_byte_frame_transport.md R155, 70_reset_and_hazards.md R294, R295):
what each part of a frame does to the driven levels, and which edges it holds. -/

namespace Sys2Proof.Machine

/-- The driven levels after a list of events. -/
def Wires.afterAll (w : Wires) (es : List Event) : Wires := es.foldl Wires.after w

theorem Wires.afterAll_append (w : Wires) (a b : List Event) : w.afterAll (a ++ b) = (w.afterAll a).afterAll b :=
  List.foldl_append

theorem edgeCount_append (isEdge : Wires → Event → Bool) (w : Wires) (a b : List Event) :
    edgeCount isEdge w (a ++ b) = edgeCount isEdge w a + edgeCount isEdge (w.afterAll a) b := by
  induction a generalizing w with
  | nil => exact (Nat.zero_add _).symm
  | cons e a ih => simp only [List.cons_append, edgeCount, ih, Nat.add_assoc]; rfl

theorem dataOnlyWhileClkLow_append (w : Wires) (a b : List Event) :
    dataOnlyWhileClkLow w (a ++ b) = (dataOnlyWhileClkLow w a && dataOnlyWhileClkLow (w.afterAll a) b) := by
  induction a generalizing w with
  | nil => rfl
  | cons e a ih => simp only [List.cons_append, dataOnlyWhileClkLow, ih, Bool.and_assoc]; rfl

/-- What is driven on DATA after some bytes: bit 0 of the last one. -/
def dataAfter (d : Option Level) (xs : List Byte) : Option Level := xs.foldl (fun _ x => some (x.getLsbD 0)) d

/-- START leaves both wires low, from any wires. -/
theorem Wires.afterAll_startWave (w : Wires) : w.afterAll startWave = ⟨some false, some false⟩ := rfl

theorem Wires.afterAll_bitWave (w : Wires) (b : Level) : w.afterAll (bitWave b) = ⟨some false, some b⟩ := rfl

theorem Wires.afterAll_byteWave (w : Wires) (x : Byte) : w.afterAll (byteWave x) = ⟨some false, some (x.getLsbD 0)⟩ := rfl

theorem Wires.afterAll_bytes (d : Option Level) (xs : List Byte) :
    Wires.afterAll ⟨some false, d⟩ (xs.flatMap byteWave) = ⟨some false, dataAfter d xs⟩ := by
  induction xs generalizing d with
  | nil => rfl
  | cons x xs ih => rw [List.flatMap_cons, Wires.afterAll_append, Wires.afterAll_byteWave, ih]; rfl

/-- A frame leaves both wires high, from any wires. -/
theorem Wires.afterAll_frameWave (w : Wires) (xs : List Byte) : w.afterAll (frameWave xs) = ⟨some true, some true⟩ := by
  rw [frameWave, Wires.afterAll_append]; rfl

/-! ### The line discipline -/

theorem dataOnlyWhileClkLow_byteWave (d : Option Level) (x : Byte) :
    dataOnlyWhileClkLow ⟨some false, d⟩ (byteWave x) = true := rfl

theorem dataOnlyWhileClkLow_bytes (d : Option Level) (xs : List Byte) :
    dataOnlyWhileClkLow ⟨some false, d⟩ (xs.flatMap byteWave) = true := by
  induction xs generalizing d with
  | nil => rfl
  | cons x xs ih =>
    rw [List.flatMap_cons, dataOnlyWhileClkLow_append, dataOnlyWhileClkLow_byteWave, Wires.afterAll_byteWave, ih,
      Bool.and_self]

theorem keepsDiscipline_frameWave (xs : List Byte) : KeepsDiscipline (frameWave xs) :=
  ⟨xs.flatMap byteWave, rfl, dataOnlyWhileClkLow_bytes _ xs⟩

/-- Settles O21: what is appended is one frame's waveform, or the sleep path's two. -/
theorem dataMovesOnlyWhileClkLow : Obligations.DataMovesOnlyWhileClkLow := by
  refine fun s hc hd => ⟨fun bytes count t h => ?_, fun t h => ?_⟩
  · change execWriteBuffer bytes count s = .next t at h
    unfold execWriteBuffer at h
    split at h
    · injection h with h
      subst h
      rw [writeBuffer_eq_drive]
      exact ⟨_, State.drive_trace_of_bound hc hd _, keepsDiscipline_frameWave _⟩
    · cases h
  · rw [exec_flush] at h
    injection h with h
    subst h
    rw [State.drive_trace_of_bound hc hd]
    refine ⟨fun lit => ?_, fun dark => ?_⟩
    · exact ⟨_, rfl, by rw [flushWave_of_lit lit]; exact keepsDiscipline_frameWave _⟩
    · rw [flushWave_of_dark dark, ← List.append_assoc]
      exact ⟨_, _, rfl, keepsDiscipline_frameWave _, keepsDiscipline_frameWave _⟩

/-! ### Edges -/

/-- An edge that neither a bit nor the acknowledgment holds while CLK is low, no byte holds. -/
theorem edgeCount_byteWave {isEdge : Wires → Event → Bool} (bit : ∀ d b, edgeCount isEdge ⟨some false, d⟩ (bitWave b) = 0)
    (ack : ∀ d, edgeCount isEdge ⟨some false, d⟩ ackWave = 0) (d : Option Level) (x : Byte) :
    edgeCount isEdge ⟨some false, d⟩ (byteWave x) = 0 := by
  simp only [byteWave, edgeCount_append, Wires.afterAll_append, Wires.afterAll_bitWave, bit, ack]

theorem startEdges_byteWave : ∀ d x, edgeCount Wires.startEdge ⟨some false, d⟩ (byteWave x) = 0 :=
  edgeCount_byteWave (fun _ _ => by simp [bitWave, edgeCount, Wires.startEdge, Wires.after])
    (fun _ => by simp [ackWave, edgeCount, Wires.startEdge, Wires.after])

theorem stopEdges_byteWave : ∀ d x, edgeCount Wires.stopEdge ⟨some false, d⟩ (byteWave x) = 0 :=
  edgeCount_byteWave (fun _ _ => by simp [bitWave, edgeCount, Wires.stopEdge, Wires.after])
    (fun _ => by simp [ackWave, edgeCount, Wires.stopEdge, Wires.after])

/-- An edge that no byte holds while CLK is low, no list of bytes holds. -/
theorem edgeCount_bytes {isEdge : Wires → Event → Bool} (none : ∀ d x, edgeCount isEdge ⟨some false, d⟩ (byteWave x) = 0)
    (d : Option Level) (xs : List Byte) : edgeCount isEdge ⟨some false, d⟩ (xs.flatMap byteWave) = 0 := by
  induction xs generalizing d with
  | nil => rfl
  | cons x xs ih => rw [List.flatMap_cons, edgeCount_append, none, Wires.afterAll_byteWave, ih]

/-- The edges of a frame are those of its start and its stop condition. -/
theorem edgeCount_frameWave {isEdge : Wires → Event → Bool} (none : ∀ d x, edgeCount isEdge ⟨some false, d⟩ (byteWave x) = 0)
    (w : Wires) (xs : List Byte) :
    edgeCount isEdge w (frameWave xs) =
      edgeCount isEdge w startWave + edgeCount isEdge ⟨some false, dataAfter (some false) xs⟩ stopWave := by
  rw [frameWave, edgeCount_append, edgeCount_append, Wires.afterAll_append, Wires.afterAll_startWave, edgeCount_bytes none,
    Wires.afterAll_bytes, Nat.add_zero]

/-- START is a start edge exactly from both wires high, and STOP never is one (70_reset_and_hazards.md R294). -/
theorem startEdges_frameWave (w : Wires) (xs : List Byte) :
    edgeCount Wires.startEdge w (frameWave xs) = if w.clk = some true ∧ w.data = some true then 1 else 0 := by
  have start : edgeCount Wires.startEdge w startWave = if w.clk = some true ∧ w.data = some true then 1 else 0 := by
    simp [startWave, edgeCount, Wires.startEdge, Wires.after]
  have stop (d : Option Level) : edgeCount Wires.startEdge ⟨some false, d⟩ stopWave = 0 := by
    simp [stopWave, edgeCount, Wires.startEdge]
  rw [edgeCount_frameWave startEdges_byteWave, start, stop, Nat.add_zero]

/-- START is never a stop edge, and STOP is one exactly when DATA was left low (70_reset_and_hazards.md R295). -/
theorem stopEdges_frameWave (w : Wires) (xs : List Byte) :
    edgeCount Wires.stopEdge w (frameWave xs) = if dataAfter (some false) xs = some false then 1 else 0 := by
  have start : edgeCount Wires.stopEdge w startWave = 0 := by simp [startWave, edgeCount, Wires.stopEdge]
  have stop (d : Option Level) : edgeCount Wires.stopEdge ⟨some false, d⟩ stopWave = if d = some false then 1 else 0 := by
    simp [stopWave, edgeCount, Wires.stopEdge, Wires.after]
  rw [edgeCount_frameWave stopEdges_byteWave, start, stop, Nat.zero_add]

/-- FLUSH holds a start edge for its first frame from both wires high, and one for the second frame of the sleep path. -/
theorem startEdges_flushWave (w : Wires) (s : State) :
    edgeCount Wires.startEdge w (flushWave s) =
      (if w.clk = some true ∧ w.data = some true then 1 else 0) + if allZero s.lvl then 1 else 0 := by
  cases zero : allZero s.lvl with
  | true =>
    rw [flushWave_of_dark zero, edgeCount_append, Wires.afterAll_frameWave, startEdges_frameWave, startEdges_frameWave]; rfl
  | false => rw [flushWave_of_lit zero, startEdges_frameWave]; rfl

/-- With both lines bound, events that drive both lines last to v leave both wires at v. -/
theorem State.wires_drive {s : State} (hc : s.bound .clk = true) (hd : s.bound .data = true) {es : List Event} {v : Level}
    (level : ∀ l, lastLevel l es = some v) : (s.drive es).wires = ⟨some v, some v⟩ := by
  have latch (l : Line) (bound : s.bound l = true) : ((s.drive es).line l).latch = some v := by
    rw [State.drive_latch bound, level, Option.some_or]
  exact congrArg₂ Wires.mk (latch .clk hc) (latch .data hd)

/-- INIT with both roles resolved leaves both wires low (43_current_and_init.md R234). -/
theorem State.wires_afterInit (s : State) (p q : PinId) :
    (s.afterInit (some p) (some q)).wires = ⟨some false, some false⟩ := by
  have driven : (((s.rebind .clk (some p)).rebind .data (some q)).drive preInitWave).wires = ⟨some false, some false⟩ :=
    State.wires_drive (by simp [State.bound]) (by simp [State.bound]) lastLevel_preInitWave
  simpa [State.wires, State.afterInit] using driven

theorem State.bound_afterInit (s : State) (p q : PinId) (l : Line) : (s.afterInit (some p) (some q)).bound l = true := by
  cases l <;> simp [State.bound, State.afterInit]

/-- Settles O22: every frame's start edges from both wires low and from both high. -/
theorem firstFrameAfterInitHasNoStartEdge : Obligations.FirstFrameAfterInitHasNoStartEdge := by
  refine ⟨fun p q s t h => ?_, fun s hc hd => ⟨?_, fun bytes count within => ?_⟩⟩
  · obtain ⟨-, rfl⟩ := exec_init_next h
    have low := s.wires_afterInit p q
    have both := s.bound_afterInit p q
    refine ⟨low, _, _, exec_flush _, State.drive_trace_of_bound (both .clk) (both .data) _, ?_⟩
    rw [startEdges_flushWave, low]
    simp
  · refine ⟨_, _, exec_flush s, State.drive_trace_of_bound hc hd _, State.wires_drive hc hd fun l => lastLevel_flushWave l s,
      fun low => ?_, fun high => ?_⟩
    · rw [startEdges_flushWave, low]
      simp
    · rw [startEdges_flushWave, high]
      cases allZero s.lvl <;> rfl
  · refine ⟨_, _, exec_writeBuffer within s, State.drive_trace_of_bound hc hd _,
      State.wires_drive hc hd fun l => lastLevel_frameWave l _, fun low => ?_, fun high => ?_⟩
    · rw [startEdges_frameWave, low]; rfl
    · rw [startEdges_frameWave, high]; rfl

/-- BUILD_FRAME's last bit on the wire is bit 5 of channel 4, bit 0 of its high byte (42_channel_encoding.md R198). -/
theorem dataAfter_buildFrame (d : Option Level) (L : Five UInt10) (rgb cw : Byte) :
    dataAfter d (buildFrame L rgb cw) = some (L.c4.getLsbD 5) := by
  have last : dataAfter d (buildFrame L rgb cw) = some ((packHi L.c4).getLsbD 0) := rfl
  rw [last]
  simp [packHi]

/-- A frame of the sleep path ends with a byte of 0. -/
theorem dataAfter_zeroFrame (d : Option Level) (addr : Byte) : dataAfter d (zeroFrame addr) = some false := rfl

/-- Settles O23: each frame's stop edge depends on its last bit alone. -/
theorem stopEdgeFollowsLastDataBit : Obligations.StopEdgeFollowsLastDataBit := by
  refine fun s w hc hd => ⟨_, _, exec_flush s, State.drive_trace_of_bound hc hd _, fun lit => ?_, fun dark => ?_⟩
  · rw [flushWave_of_lit lit, stopEdges_frameWave, dataAfter_buildFrame]
    cases s.lvl.c4.getLsbD 5 <;> rfl
  · rw [flushWave_of_dark dark, edgeCount_append, stopEdges_frameWave, stopEdges_frameWave, dataAfter_zeroFrame,
      dataAfter_zeroFrame]
    rfl

end Sys2Proof.Machine
end

section
/-! PROOF. Operand conversions: P_SCALE as an exact floor with its laws (42_channel_encoding.md R171), and HEX5 (R181). -/

namespace Sys2Proof.Machine

/-- P_SCALE's quotient of numerator and denominator is the floor of the exact product. -/
theorem floor_scaled (v : Rat) : ⌊v * 1023 / 255⌋ = v.num * 1023 / ((v.den : Int) * 255) := by
  have den : (v.den : Rat) ≠ 0 := by exact_mod_cast v.den_ne_zero
  have product : v * 1023 / 255 = ((v.num * 1023 : Int) : Rat) / ((v.den * 255 : Nat) : Rat) := by
    conv_lhs => rw [← Rat.num_div_den v]
    push_cast
    field_simp
  rw [product, Rat.floor_intCast_div_natCast]
  push_cast
  rfl

/-- The product of an input from 0 to 255 is from 0 to 1023. -/
theorem floor_scaled_bounds {v : Rat} (h0 : 0 ≤ v) (h255 : v ≤ 255) :
    0 ≤ ⌊v * 1023 / 255⌋ ∧ ⌊v * 1023 / 255⌋ ≤ 1023 := by
  refine ⟨Int.floor_nonneg.2 (by positivity), Int.le_of_lt_add_one (Int.floor_lt.2 ?_)⟩
  push_cast
  linarith

/-- P_SCALE on its domain, as a number. -/
theorem pScale_toNat {v : Rat} (h0 : 0 ≤ v) (h255 : v ≤ 255) : ((pScale v).toNat : Int) = ⌊v * 1023 / 255⌋ := by
  obtain ⟨low, high⟩ := floor_scaled_bounds h0 h255
  rw [floor_scaled] at low high ⊢
  rw [pScale, BitVec.toNat_ofInt]
  generalize v.num * 1023 / ((v.den : Int) * 255) = n at *
  omega

/-- Settles O32. -/
theorem scaleIsFloorOfExactProduct : Obligations.ScaleIsFloorOfExactProduct :=
  fun _ => pScale_toNat

/-- P_SCALE is monotone, as the floor and the product are. -/
theorem pScale_mono {u v : Rat} (h0 : 0 ≤ u) (huv : u ≤ v) (h255 : v ≤ 255) : (pScale u).toNat ≤ (pScale v).toNat := by
  have floors : ⌊u * 1023 / 255⌋ ≤ ⌊v * 1023 / 255⌋ := Int.floor_le_floor (by gcongr)
  rw [← pScale_toNat h0 (huv.trans h255), ← pScale_toNat (h0.trans huv) h255] at floors
  exact_mod_cast floors

/-- P_SCALE is less than 1 away from the exact product, as every floor is. -/
theorem abs_pScale_sub_lt_one {v : Rat} (h0 : 0 ≤ v) (h255 : v ≤ 255) :
    |((pScale v).toNat : Rat) - v * 1023 / 255| < 1 := by
  have level : ((pScale v).toNat : Rat) = (⌊v * 1023 / 255⌋ : Int) := by exact_mod_cast pScale_toNat h0 h255
  have below := Int.floor_le (v * 1023 / 255)
  have above := Int.lt_floor_add_one (v * 1023 / 255)
  rw [level, abs_lt]
  constructor <;> linarith

/-- Settles O33. -/
theorem scaleKeepsItsLaws : Obligations.ScaleKeepsItsLaws :=
  ⟨by decide, by decide, fun _ _ => pScale_mono, fun _ => abs_pScale_sub_lt_one⟩

/-- One pair of HEX5: both characters are digits, and the first is the high one. -/
theorem hexPair_eq_some {hi lo : Char} {n : Nat} :
    hexPair hi lo = some n ↔ ∃ h l, hexVal hi = some h ∧ hexVal lo = some l ∧ n = 16 * h + l := by
  unfold hexPair
  cases hexVal hi <;> cases hexVal lo <;> simp [eq_comm]

/-- On ten characters HEX5 is a check of five pairs. -/
theorem hex5_of_ten (h0 l0 h1 l1 h2 l2 h3 l3 h4 l4 : Char) :
    hex5 [h0, l0, h1, l1, h2, l2, h3, l3, h4, l4] =
      Five.check (fun p : Char × Char => hexPair p.1 p.2) ⟨(h0, l0), (h1, l1), (h2, l2), (h3, l3), (h4, l4)⟩ := by
  simp only [hex5, Five.check]
  cases hexPair h0 l0 <;> cases hexPair h1 l1 <;> cases hexPair h2 l2 <;> cases hexPair h3 l3 <;> cases hexPair h4 l4 <;> rfl

/-- HEX5 reads no string of another length. -/
theorem hex5_length {str : Str} {b : Five Nat} (h : hex5 str = some b) : str.length = 10 := by
  unfold hex5 at h
  split at h
  · rfl
  · cases h

/-- A list of ten is its ten entries. -/
theorem exists_ten_of_length {α : Type} {xs : List α} (h : xs.length = 10) :
    ∃ h0 l0 h1 l1 h2 l2 h3 l3 h4 l4, xs = [h0, l0, h1, l1, h2, l2, h3, l3, h4, l4] := by
  match xs, h with
  | [h0, l0, h1, l1, h2, l2, h3, l3, h4, l4], _ => exact ⟨h0, l0, h1, l1, h2, l2, h3, l3, h4, l4, rfl⟩

/-- The pair of characters 2k and 2k + 1 of a string reads as n. -/
theorem hexPair_at {str : Str} {hi lo : Char} {n i : Nat} (hhi : str[i]? = some hi) (hlo : str[i + 1]? = some lo) :
    (∃ hi lo h l, str[i]? = some hi ∧ str[i + 1]? = some lo ∧ hexVal hi = some h ∧ hexVal lo = some l ∧ n = 16 * h + l) ↔
      hexPair hi lo = some n := by
  rw [hexPair_eq_some, hhi, hlo]
  constructor
  · rintro ⟨_, _, h, l, same, same', rest⟩
    cases same
    cases same'
    exact ⟨h, l, rest⟩
  · rintro ⟨h, l, rest⟩
    exact ⟨hi, lo, h, l, rfl, rfl, rest⟩

/-- Settles O35: a string of ten characters is five pairs, and each pair is read by `hexPair`. -/
theorem hexStringGivesFiveBytes : Obligations.HexStringGivesFiveBytes := by
  intro str b
  by_cases len : str.length = 10
  · obtain ⟨h0, l0, h1, l1, h2, l2, h3, l3, h4, l4, rfl⟩ := exists_ten_of_length len
    rw [hex5_of_ten, Five.check_eq_some, and_iff_right len]
    refine forall_congr' fun k => ?_
    fin_cases k <;> exact (hexPair_at rfl rfl).symm
  · exact iff_of_false (fun h => len (hex5_length h)) fun h => len h.1

end Sys2Proof.Machine
end

section
/-! PROOF. Host commands (42_channel_encoding.md, 43_current_and_init.md, 60_exceptions.md): what each one answers when it
completes, when it stops at its gate, and when it is refused. -/

namespace Sys2Proof.Machine

/-! ### Operands of the registered commands: further arguments are ignored (60_exceptions.md R262) -/

@[simp] theorem firstOne_cons {α : Type} (a : α) (others : List α) : firstOne (a :: others) = some a := rfl

@[simp] theorem firstTwo_cons_cons {α : Type} (a b : α) (others : List α) : firstTwo (a :: b :: others) = some (a, b) := rfl

@[simp] theorem firstFive_toList_append {α : Type} (a : Five α) (others : List α) :
    firstFive (a.toList ++ others) = some a := rfl

/-! ### Colour writes -/

/-- A colour write whose inputs and remap entries pass their checks completes (42_channel_encoding.md R175). -/
theorem colorWrite_completes {vs : Five LevelInput} {v : Five Rat} {r : Five (Fin 5)} {s : State}
    (inputs : vs.check levelInRange = some v) (entries : s.remap.check remapIndex = some r) :
    colorWrite vs s = .next (((s.setLvl (gather v r)).drive (flushWave (s.setLvl (gather v r)))).ret .ok) := by
  simp only [colorWrite, inputs, entries, flush_eq_drive]

theorem colorWrite_refused_input {vs : Five LevelInput} (inputs : vs.check levelInRange = none) (s : State) :
    colorWrite vs s = .refused .levelInputOutOfRange := by
  simp only [colorWrite, inputs]

theorem colorWrite_refused_entry {vs : Five LevelInput} {v : Five Rat} {s : State}
    (inputs : vs.check levelInRange = some v) (entries : s.remap.check remapIndex = none) :
    colorWrite vs s = .refused .remapEntryOutOfRange := by
  simp only [colorWrite, inputs, entries]

theorem exec_writeColor_five (x : Five LevelInput) (s : State) : exec (.writeColor x.toList) s = colorWrite x s := rfl

theorem exec_rawColor {str : Str} {b : Five Nat} {s : State} (inited : s.inited = true) (read : hex5 str = some b)
    (others : List Str) : exec (.rawColor (str :: others)) s = colorWrite (bytesAsInputs b) s := by
  simp only [exec, execRawColor, firstOne_cons, whenRegistered_run inited, read]

theorem remap_check_eq_some {m : Five Int} {r : Five (Fin 5)} :
    m.check remapIndex = some r ↔ ∀ k, m.get k = ((r.get k).val : Int) := by
  simp only [Five.check_eq_some, remapIndex_eq_some]

theorem remap_check_eq_none {m : Five Int} : m.check remapIndex = none ↔ ∃ k, m.get k < 0 ∨ 4 < m.get k := by
  simp only [Five.check_eq_none, remapIndex_eq_none]

/-- Five rationals from 0 to 255 pass WRITE_COLOR's check. -/
theorem rationals_check {v : Five Rat} (range : ∀ k, 0 ≤ v.get k ∧ v.get k ≤ 255) :
    (v.map LevelInput.rat).check levelInRange = some v := by
  rw [Five.check_eq_some]
  intro k
  rw [Five.get_map, levelInRange_eq_some]
  exact ⟨rfl, range k⟩

/-- Settles O36: the checks pass, and the levels are the scaled gather. -/
theorem writeColorResult : Obligations.WriteColorResult := by
  refine fun s v r range entries => ⟨gather v r, fun k => ?_, ?_⟩
  · obtain ⟨low, high⟩ := range (r.get k)
    rw [gather, Five.get_map, pScale_toNat low high]
  · exact colorWrite_completes (rationals_check range) (remap_check_eq_some.2 entries)

/-- P_SCALE of a byte is the integer division (42_channel_encoding.md R171). -/
theorem pScale_natCast {n : Nat} (h : n ≤ 255) : (pScale (n : Rat)).toNat = n * 1023 / 255 := by
  have floor := pScale_toNat (v := (n : Rat)) (by positivity) (by exact_mod_cast h)
  have product : ((n : Rat) * 1023 / 255) = ((n * 1023 : Nat) : Rat) / ((255 : Nat) : Rat) := by push_cast; rfl
  rw [product, Rat.floor_natCast_div_natCast] at floor
  exact_mod_cast floor

/-- Settles O37: RAW_COLOR's bytes are inputs in range, so the write completes as WRITE_COLOR's does. -/
theorem rawColorResult : Obligations.RawColorResult := by
  intro s str others b r inited read entries
  have bytes := hex5_le read
  refine ⟨(exec_rawColor inited read others).trans (exec_writeColor_five (bytesAsInputs b) s).symm,
    gather (b.map fun (n : Nat) => (n : Rat)) r, fun k => ?_, ?_⟩
  · rw [gather, Five.get_map, Five.get_map, pScale_natCast (bytes (r.get k))]
  · rw [exec_rawColor inited read]
    exact colorWrite_completes (bytesAsInputs_inRange bytes) (remap_check_eq_some.2 entries)

/-- An input fails its check exactly when it is no rational from 0 to 255. -/
theorem levelInRange_eq_none {x : LevelInput} : levelInRange x = none ↔ ¬ ∃ q : Rat, x = .rat q ∧ 0 ≤ q ∧ q ≤ 255 := by
  simp only [Option.eq_none_iff_forall_ne_some, ne_eq, levelInRange_eq_some, not_exists]

theorem mem_toList_iff {α : Type} {x : Five α} {a : α} : a ∈ x.toList ↔ ∃ k, x.get k = a := by
  rw [← not_iff_not, not_exists, Five.forall_fin]
  simp [Five.toList, Five.get, eq_comm]

theorem exists_five_of_length {α : Type} {xs : List α} (h : xs.length = 5) : ∃ x : Five α, xs = x.toList := by
  match xs, h with
  | [a, b, c, d, e], _ => exact ⟨⟨a, b, c, d, e⟩, rfl⟩

/-- Inputs that are all in range pass the check together. -/
theorem check_levelInRange_of_all {x : Five LevelInput} (all : ∀ a ∈ x.toList, ∃ q : Rat, a = .rat q ∧ 0 ≤ q ∧ q ≤ 255) :
    ∃ v, x.check levelInRange = some v := by
  refine Option.ne_none_iff_exists'.1 fun fails => ?_
  obtain ⟨k, hk⟩ := Five.check_eq_none.1 fails
  exact levelInRange_eq_none.1 hk (all _ (mem_toList_iff.2 ⟨k, rfl⟩))

/-- Settles O45, the refusals in the order of the checks. -/
theorem colorRefusals : Obligations.ColorRefusals := by
  refine fun s => ⟨fun vs len => ?_, fun vs len bad => ?_, fun vs len all entries => ?_, fun str others inited malformed => ?_,
    fun str others inited read entries => ?_⟩
  · simp only [exec, execWriteColor, exactlyFive_eq_none.2 len]
  · obtain ⟨x, rfl⟩ := exists_five_of_length len
    obtain ⟨a, mem, outside⟩ := bad
    obtain ⟨k, rfl⟩ := mem_toList_iff.1 mem
    exact colorWrite_refused_input (Five.check_eq_none.2 ⟨k, levelInRange_eq_none.2 outside⟩) s
  · obtain ⟨x, rfl⟩ := exists_five_of_length len
    obtain ⟨v, inputs⟩ := check_levelInRange_of_all all
    exact colorWrite_refused_entry inputs (remap_check_eq_none.2 entries)
  · simp only [exec, execRawColor, firstOne_cons, whenRegistered_run inited, malformed]
  · obtain ⟨b, read⟩ := Option.ne_none_iff_exists'.1 read
    rw [exec_rawColor inited read]
    exact colorWrite_refused_entry (bytesAsInputs_inRange (hex5_le read)) (remap_check_eq_none.2 entries)

/-! ### Configuration -/

/-- Settles O38. -/
theorem setRemapResult : Obligations.SetRemapResult := by
  intro s r others inited
  have entries : (r.map fun i => (i.val : Int)).check remapIndex = some r :=
    remap_check_eq_some.2 fun k => Five.get_map _ _ _
  simp only [exec, execSetRemap, firstFive_toList_append, whenRegistered_run inited, entries]
  rfl

/-- Settles O39: both inputs are in range, and the codes are CUR_XFORM's. -/
theorem setCurrentResult : Obligations.SetCurrentResult := by
  intro s x y others inited hx0 hx1 hy0 hy1
  refine ⟨curXform x, curXform y, curXform_toNat ⟨hx0, hx1⟩, curXform_toNat ⟨hy0, hy1⟩, ?_⟩
  simp only [exec, execSetCurrent, firstTwo_cons_cons, whenRegistered_run inited, currentInRange_iff.2 ⟨hx0, hx1⟩,
    currentInRange_iff.2 ⟨hy0, hy1⟩, Bool.and_self, if_true, flush_eq_drive]
  rfl

/-- Settles O43: `whenRegistered` asks for INITED first. -/
theorem registeredCommandsNeedInit : Obligations.RegisteredCommandsNeedInit :=
  fun _ early => ⟨fun _ => whenRegistered_early early _ _, fun _ => whenRegistered_early early _ _,
    fun _ => whenRegistered_early early _ _⟩

/-- Settles O44: with too few arguments there are no operands. -/
theorem tooFewArgumentsChangeNothing : Obligations.TooFewArgumentsChangeNothing := by
  refine fun s inited => ⟨fun args few => ?_, fun args few => ?_, fun args few => ?_⟩
  · simp only [exec, execRawColor, firstOne_eq_none.2 few, whenRegistered_few inited]; rfl
  · simp only [exec, execSetRemap, firstFive_eq_none.2 few, whenRegistered_few inited]; rfl
  · simp only [exec, execSetCurrent, firstTwo_eq_none.2 few, whenRegistered_few inited]; rfl

/-- Settles O46. -/
theorem configurationRefusals : Obligations.ConfigurationRefusals := by
  refine fun s => ⟨fun a others inited outside => ?_, fun x y others inited outside => ?_, fun p => ?_,
    fun bytes count beyond => ?_⟩
  · simp only [exec, execSetRemap, firstFive_toList_append, whenRegistered_run inited, remap_check_eq_none.2 outside]
  · have fails : ¬ (currentInRange x && currentInRange y) = true := by
      rw [Bool.and_eq_true, currentInRange_iff, currentInRange_iff]
      omega
    simp only [exec, execSetCurrent, firstTwo_cons_cons, whenRegistered_run inited, if_neg fails]
  · exact if_pos (by simp [pinConflict])
  · exact if_neg (Nat.not_le.2 beyond)

/-! ### INIT -/

/-- Settles O41. -/
theorem initResult : Obligations.InitResult := by
  intro s clk data differ
  have free : pinConflict clk data = false :=
    pinConflict_eq_false_iff.2 fun bound => differ.resolve_left bound
  rw [exec_init free, State.afterInit, State.defaultRemap_eq]
  rfl

/-- A bound line after PRE_INIT is an output driven low, whatever was known of it. -/
theorem LineState.after_preInitWave {x : LineState} {p : PinId} (bound : x.pin = some p) (l : Line) :
    x.after l preInitWave = ⟨some p, some .output, some false⟩ := by
  simp [LineState.after, bound]

/-- Settles O42. -/
theorem initLeavesKnownIdleBus : Obligations.InitLeavesKnownIdleBus := by
  intro s p q differ
  have free : pinConflict (some p) (some q) = false := pinConflict_eq_false_iff.2 fun _ => by simpa using differ
  refine ⟨_, exec_init free s, ?_⟩
  simp [State.afterInit, LineState.after_preInitWave]

end Sys2Proof.Machine
end

section
/-! PROOF. The opcode table and the step (30_encoding.md R80 to R84, 20_memory.md R64 to R68): what a step finds to do and runs,
and the state after reset. -/

namespace Sys2Proof.Machine

/-- Settles O1: each row is its operation's own encoding. -/
theorem tableCodesDecode : Obligations.TableCodesDecode :=
  ⟨fun clk data => decode_encode (.init clk data), fun vs => decode_encode (.writeColor vs),
    fun ss => decode_encode (.rawColor ss), fun xs => decode_encode (.setRemap xs), fun xs => decode_encode (.setCurrent xs),
    fun l v => decode_encode (.setLine l v), fun l m => decode_encode (.setMode l m), fun b => decode_encode (.writeBit b),
    decode_encode .ackCycle, fun x => decode_encode (.writeByte x), decode_encode .start, decode_encode .stop,
    fun bytes count => decode_encode (.writeBuffer bytes count), decode_encode .flush, decode_encode .preInit⟩

theorem runCommand_of_decode {w : Byte} {a : Args} {i : Instr} (h : decode .host w a = .ok i) (s : State) :
    runCommand w a s = exec i s := by
  simp only [runCommand, h]

theorem runMicro_of_decode {w : Byte} {a : Args} {i : Instr} (h : decode .micro w a = .ok i) (s : State) :
    runMicro w a s = exec i s := by
  simp only [runMicro, h]

/-- Settles O4. -/
theorem stepRunsHostCommand : Obligations.StepRunsHostCommand :=
  fun _ _ _ _ _ free next decoded => (step_command free next).trans (runCommand_of_decode decoded _)

/-- Settles O5. -/
theorem stepRunsSelectedMicroOperation : Obligations.StepRunsSelectedMicroOperation :=
  fun _ _ _ _ selected decoded => (step_micro selected).trans (runMicro_of_decode decoded _)

/-- Settles O6. -/
theorem stepWaitsWithoutMove : Obligations.StepWaitsWithoutMove :=
  fun _ => step_idle

/-- Settles O7. -/
theorem hostChangesRemapStoreOnly : Obligations.HostChangesRemapStoreOnly :=
  fun _ _ _ _ free next => step_remapStore free next

/-- A table word that decodes is a byte, and decodes at its own port with the zero operands. -/
theorem decode_of_decodeTableWord {w : Nat} {i : Instr} (h : decodeTableWord 8 w = some i) :
    w < 256 ∧ decode (Port.ofWord (BitVec.ofNat 8 w)) (BitVec.ofNat 8 w) (Args.zero (BitVec.ofNat 8 w)) = .ok i := by
  unfold decodeTableWord at h
  split at h
  · rename_i byte
    split at h
    · rename_i j decoded
      injection h with h
      exact ⟨byte.2, h ▸ decoded⟩
    · cases h
  · cases h

/-- A word issued at its port is what the next step runs. -/
theorem step_issueWord {w : Byte} {i : Instr} (decoded : decode (Port.ofWord w) w (Args.zero w) = .ok i) (s : State) :
    step (s.issueWord w) = exec i { s with micro := none } := by
  unfold State.issueWord
  cases port : Port.ofWord w with
  | host =>
    rw [port] at decoded
    exact (step_command rfl rfl).trans (runCommand_of_decode decoded _)
  | micro =>
    rw [port] at decoded
    exact (step_micro rfl).trans (runMicro_of_decode decoded _)

/-- Settles O8: placing a byte issues it unchanged. -/
theorem placedTableWordRunsNext : Obligations.PlacedTableWordRunsNext := by
  intro s w i h
  obtain ⟨byte, decoded⟩ := decode_of_decodeTableWord h
  rw [State.withFetchWord, Nat.mod_eq_of_lt (b := 2 ^ 8) byte]
  exact step_issueWord decoded s

/-- Settles O9. -/
theorem resetValues : Obligations.ResetValues :=
  ⟨Five.forall_fin.2 ⟨rfl, rfl, rfl, rfl, rfl⟩, rfl, rfl, fun l => by cases l <;> rfl, rfl, rfl, rfl, rfl⟩

end Sys2Proof.Machine
end
